-- ==== Sys2Proof/Word.lean ====
section
/-! DEFINITION. The two word sizes of the block: 32-bit command and register words (R32, R80) and 8-bit lanes,
table entries and buffer bytes (R8, R23, R29). Bit 0 is the least significant bit (R8). -/

namespace Sys2Proof

/-- A command word or a host-visible register (R32, R80). -/
abbrev Word := BitVec 32

/-- A lane, a table entry or a byte of BUF: an unsigned 8-bit value (R8). -/
abbrev Byte := BitVec 8

end Sys2Proof
end

