-- ==== Sys2Proof/Config.lean ====
section
/-! DEFINITION. What a construction of the block fixes (R6, R7) and the one free value of the model. -/

namespace Sys2Proof

/-- The lane count `W`: 16, 32 or 64 (R6). -/
inductive LaneCount where
  | w16
  | w32
  | w64
deriving DecidableEq, Repr

/-- `W` as a number (R6). -/
def LaneCount.toNat : LaneCount → Nat
  | .w16 => 16
  | .w32 => 32
  | .w64 => 64

/-- `log2 W`, the LOG2W field of ID (R33). -/
def LaneCount.log2 : LaneCount → BitVec 4
  | .w16 => 4
  | .w32 => 5
  | .w64 => 6

/-- What QUOTIENT does with a zero divisor lane (R6). -/
inductive Div0Policy where
  | strict
  | lenient
deriving DecidableEq, Repr

/-- The POLICY bit of ID: 0 = STRICT, 1 = LENIENT (R33). -/
def Div0Policy.bit : Div0Policy → BitVec 1
  | .strict => 0
  | .lenient => 1

/-- The construction parameters of R6. -/
structure Params where
  lanes   : LaneCount
  policy  : Div0Policy
  bufSize : Nat
deriving DecidableEq, Repr

/-- `W`, the number of lanes of every vector and mask register (R6). -/
def Params.w (p : Params) : Nat := p.lanes.toNat

/-- The legal constructions: 256 <= BUF_SIZE <= 65536 (R6; `lanes` and `policy` are legal by their types). -/
def Params.legal (p : Params) : Bool := 256 ≤ p.bufSize && p.bufSize ≤ 65536

/-- The defaults of R6: W = 64, LENIENT, BUF_SIZE = 4096. -/
def Params.default : Params := { lanes := .w64, policy := .lenient, bufSize := 4096 }

/-- FREE VALUE: what the hardware returns for the `n`-th read of a buffer byte that nothing has written. R38 says
that it "gets some 8-bit value" and does not fix it. No body: nothing can be proved of it. DESIGN CHOICE, safe (log 4). -/
opaque Config.unwrittenByte : Nat → BitVec 8

end Sys2Proof
end

