-- ==== Sys2Proof/Syntax.lean ====
section
/-! DEFINITION. The 16 commands of the opcode map (R93), one constructor per row of spec/opcode_table.json, with
the operand fields of formats N, B, RT, RK, RB, R2, R3, I and M (R82 to R90). -/

namespace Sys2Proof

/-- A vector register number, 0..7 (R91). -/
abbrev VReg := Fin 8

/-- A mask register number, 0..3 (R91). -/
abbrev KReg := Fin 4

/-- The `half` selector of LOOKUP128: 0 = lo, 1 = hi (R84). -/
inductive Half where
  | lo
  | hi
deriving DecidableEq, Repr

/-- The commands of R93. `tsel` stays the 3-bit field of R91, because 5..7 are encodable and raise
IllegalCommand (R96); `lo` and `hi` of BUILD stay 9-bit fields, because every pair has a defined effect (R118). -/
inductive Instr where
  | nop
  | build (lo hi : BitVec 9)
  | lookup128 (rd ra : VReg) (tsel : BitVec 3) (half : Half)
  | highbitmask (kd : KReg) (ra : VReg)
  | blend (rd ra rb : VReg) (kc : KReg)
  | wtl (rd ra : VReg) (tsel : BitVec 3)
  | bitwidth (rd ra : VReg)
  | mulhi (rd ra rb : VReg)
  | vadd (rd ra rb : VReg)
  | vsub (rd ra rb : VReg)
  | vsrlv (rd ra rb : VReg)
  | quotient (rd ra rb : VReg)
  | vsplat (rd : VReg) (imm8 : BitVec 8)
  | vld (rd : VReg) (addr : BitVec 16)
  | vst (rs : VReg) (addr : BitVec 16)
  | tld (addr : BitVec 16)
deriving DecidableEq, Repr

end Sys2Proof
end

