-- ==== Sys2Proof/WellFormed.lean ====
section
/-! DEFINITION. Which commands an assembler may write (R100): every register number, immediate, address and
divisor is in range by its type, and a table slot is at most 4 (R91, R96). The machine runs the others too: they
raise IllegalCommand. -/

namespace Sys2Proof

/-- "tsel is a 3-bit table slot number. Values 0..4 are legal and 5..7 are reserved" (R91). -/
def slotLegal (tsel : BitVec 3) : Bool := tsel.toNat ≤ 4

/-- The operands are ones an assembler accepts (R100). -/
def Instr.wellFormed : Instr → Bool
  | .lookup128 _ _ tsel _ => slotLegal tsel
  | .wtl _ _ tsel => slotLegal tsel
  | .nop => true
  | .build _ _ => true
  | .highbitmask _ _ => true
  | .blend _ _ _ _ => true
  | .bitwidth _ _ => true
  | .mulhi _ _ _ => true
  | .vadd _ _ _ => true
  | .vsub _ _ _ => true
  | .vsrlv _ _ _ => true
  | .quotient _ _ _ => true
  | .vsplat _ _ => true
  | .vld _ _ => true
  | .vst _ _ => true
  | .tld _ => true

end Sys2Proof
end

