-- ==== Sys2Proof/Decode.lean ====
section
/-! DEFINITION. Decoding and encoding of the 32-bit command word (R80 to R98, R103). A word decodes to a command
exactly when (word AND mask) = match for that row of R93. The checks of a field's VALUE (tsel > 4, BUILD's range) come
after the match (R93, R216) and are in the command's meaning. -/

namespace Sys2Proof

/-- Why a word is no command. Either way the block raises IllegalCommand (R213). -/
inductive DecodeError where
  /-- The opcode is 0x10..0x3F (R94). -/
  | reservedOpcode
  /-- A 1 in a bit that the command's format marks zero (R95). -/
  | mustBeZero
deriving DecidableEq, Repr

/-- The opcode field, bits [31:26] (R81). -/
def opField (w : Word) : BitVec 6 := w.extractLsb' 26 6

/-- The vector register field whose lowest bit is `lsb` (R91). -/
def vregField (w : Word) (lsb : Nat) : VReg := (w.extractLsb' lsb 3).toFin

/-- The mask register field whose lowest bit is `lsb` (R91). -/
def kregField (w : Word) (lsb : Nat) : KReg := (w.extractLsb' lsb 2).toFin

/-- The table slot field, bits [19:17] of format RT (R84). -/
def tselField (w : Word) : BitVec 3 := w.extractLsb' 17 3

/-- The half selector, bit 16 of format RT: 0 = lo, 1 = hi (R84). -/
def halfField (w : Word) : Half := if w.getLsbD 16 then .hi else .lo

/-- The byte address, bits [15:0] of format M (R90). -/
def addrField (w : Word) : BitVec 16 := w.extractLsb' 0 16

/-- One row of R93: with the opcode already matched, the row's fixed bits decide. -/
def matchRow (w mask value : Word) (i : Instr) : Except DecodeError Instr :=
  if w &&& mask = value then .ok i else .error .mustBeZero

/-- The opcode map of R93. -/
def decode (w : Word) : Except DecodeError Instr :=
  match (opField w).toNat with
  | 0x00 => matchRow w 0xFFFFFFFF 0x00000000 .nop
  | 0x01 => matchRow w 0xFFFC0000 0x04000000 (.build (w.extractLsb' 9 9) (w.extractLsb' 0 9))
  | 0x02 => matchRow w 0xFC00FFFF 0x08000000
      (.lookup128 (vregField w 23) (vregField w 20) (tselField w) (halfField w))
  | 0x03 => matchRow w 0xFE0FFFFF 0x0C000000 (.highbitmask (kregField w 23) (vregField w 20))
  | 0x04 => matchRow w 0xFC007FFF 0x10000000
      (.blend (vregField w 23) (vregField w 20) (vregField w 17) (kregField w 15))
  | 0x05 => matchRow w 0xFC01FFFF 0x14000000 (.wtl (vregField w 23) (vregField w 20) (tselField w))
  | 0x06 => matchRow w 0xFC0FFFFF 0x18000000 (.bitwidth (vregField w 23) (vregField w 20))
  | 0x07 => matchRow w 0xFC01FFFF 0x1C000000 (.mulhi (vregField w 23) (vregField w 20) (vregField w 17))
  | 0x08 => matchRow w 0xFC01FFFF 0x20000000 (.vadd (vregField w 23) (vregField w 20) (vregField w 17))
  | 0x09 => matchRow w 0xFC01FFFF 0x24000000 (.vsub (vregField w 23) (vregField w 20) (vregField w 17))
  | 0x0A => matchRow w 0xFC01FFFF 0x28000000 (.vsrlv (vregField w 23) (vregField w 20) (vregField w 17))
  | 0x0B => matchRow w 0xFC01FFFF 0x2C000000 (.quotient (vregField w 23) (vregField w 20) (vregField w 17))
  | 0x0C => matchRow w 0xFC7FFF00 0x30000000 (.vsplat (vregField w 23) (w.extractLsb' 0 8))
  | 0x0D => matchRow w 0xFC7F0000 0x34000000 (.vld (vregField w 23) (addrField w))
  | 0x0E => matchRow w 0xFC7F0000 0x38000000 (.vst (vregField w 23) (addrField w))
  | 0x0F => matchRow w 0xFFFF0000 0x3C000000 (.tld (addrField w))
  | _ => .error .reservedOpcode

/-- A vector register number as its 3-bit field (R91). -/
def vregBits (r : VReg) : BitVec 3 := BitVec.ofFin r

/-- A mask register number as its 2-bit field (R91). -/
def kregBits (k : KReg) : BitVec 2 := BitVec.ofFin k

/-- The `half` bit (R84). -/
def halfBit : Half → BitVec 1
  | .lo => 0
  | .hi => 1

/-- Format N (R82). -/
def formatN (op : BitVec 6) : Word := op ++ 0#26

/-- Format B (R83). -/
def formatB (op : BitVec 6) (lo hi : BitVec 9) : Word := op ++ 0#8 ++ lo ++ hi

/-- Format RT (R84). -/
def formatRT (op : BitVec 6) (rd ra : VReg) (tsel : BitVec 3) (half : BitVec 1) : Word :=
  op ++ vregBits rd ++ vregBits ra ++ tsel ++ half ++ 0#16

/-- Format RK (R85). -/
def formatRK (op : BitVec 6) (kd : KReg) (ra : VReg) : Word :=
  op ++ 0#1 ++ kregBits kd ++ vregBits ra ++ 0#20

/-- Format RB (R86). -/
def formatRB (op : BitVec 6) (rd ra rb : VReg) (kc : KReg) : Word :=
  op ++ vregBits rd ++ vregBits ra ++ vregBits rb ++ kregBits kc ++ 0#15

/-- Format R2 (R87). -/
def formatR2 (op : BitVec 6) (rd ra : VReg) : Word :=
  op ++ vregBits rd ++ vregBits ra ++ 0#20

/-- Format R3 (R88). -/
def formatR3 (op : BitVec 6) (rd ra rb : VReg) : Word :=
  op ++ vregBits rd ++ vregBits ra ++ vregBits rb ++ 0#17

/-- Format I (R89). -/
def formatI (op : BitVec 6) (rd : VReg) (imm8 : BitVec 8) : Word :=
  op ++ vregBits rd ++ 0#15 ++ imm8

/-- Format M (R90). -/
def formatM (op : BitVec 6) (r : VReg) (addr : BitVec 16) : Word :=
  op ++ vregBits r ++ 0#7 ++ addr

/-- The word of a command, from the formats of R82 to R90 and the opcodes of R93. -/
def encode : Instr → Word
  | .nop => formatN 0x00
  | .build lo hi => formatB 0x01 lo hi
  | .lookup128 rd ra tsel half => formatRT 0x02 rd ra tsel (halfBit half)
  | .highbitmask kd ra => formatRK 0x03 kd ra
  | .blend rd ra rb kc => formatRB 0x04 rd ra rb kc
  | .wtl rd ra tsel => formatRT 0x05 rd ra tsel 0
  | .bitwidth rd ra => formatR2 0x06 rd ra
  | .mulhi rd ra rb => formatR3 0x07 rd ra rb
  | .vadd rd ra rb => formatR3 0x08 rd ra rb
  | .vsub rd ra rb => formatR3 0x09 rd ra rb
  | .vsrlv rd ra rb => formatR3 0x0A rd ra rb
  | .quotient rd ra rb => formatR3 0x0B rd ra rb
  | .vsplat rd imm8 => formatI 0x0C rd imm8
  | .vld rd addr => formatM 0x0D rd addr
  | .vst rs addr => formatM 0x0E rs addr
  | .tld addr => formatM 0x0F 0 addr

/-- The command my decoder reads from the low `nbits` bits of `w` (every row of the table has 32). A command word
arrives whole as a 32-bit value and is never stored as bytes (R62), so there is no byte order to undo. -/
def decodeTableWord (nbits w : Nat) : Option Instr :=
  match decode (BitVec.ofNat 32 (w % 2 ^ nbits)) with
  | .ok i => some i
  | .error _ => none

end Sys2Proof
end

