-- ==== Sys2Proof/Machine/BitWidth.lean ====
section
/-! DEFINITION. `bit_width` and the BitWidthTable, the read-only slot 3 (R27, R150, R151). The BITWIDTH command
is in Machine/Tables.lean. -/

namespace Sys2Proof.Machine

open Sys2Proof

/-- `bit_width(x)` by the ranges of R150's table. -/
def bitWidth (x : Byte) : Nat :=
  if x.toNat = 0 then 0
  else if x.toNat < 2 then 1
  else if x.toNat < 4 then 2
  else if x.toNat < 8 then 3
  else if x.toNat < 16 then 4
  else if x.toNat < 32 then 5
  else if x.toNat < 64 then 6
  else if x.toNat < 128 then 7
  else 8

/-- TBL[3]: entry j is bit_width(j), fixed at construction (R27, R151). -/
def bitWidthRom (j : Byte) : Byte := BitVec.ofNat 8 (bitWidth j)

end Sys2Proof.Machine
end

