-- ==== Sys2Proof/Machine/MagicTable.lean ====
section
/-! DEFINITION. The magic-constant function (R110 to R116) and the three tables a build publishes. -/

namespace Sys2Proof.Machine

open Sys2Proof

/-- `l(d) = bit_width(d - 1)` (R111), read from the BitWidthTable as the build does (R155). -/
def magicL (d : Byte) : Nat := (bitWidthRom (d - 1)).toNat

/-- `m(d)`, in 16-bit unsigned arithmetic, the low 8 bits of the quotient kept (R112; the corrected formula of C1). -/
def magicM (d : Byte) : Byte :=
  let d16 := d.setWidth 16
  ((((1#16 <<< magicL d) - d16) <<< 8 + (d16 - 1#16)) / d16).setWidth 8

/-- `sh1(d) = min(l(d), 1)` (R113). -/
def magicSh1 (d : Byte) : Byte := BitVec.ofNat 8 (min (magicL d) 1)

/-- `sh2(d) = l(d) - sh1(d)` (R114). -/
def magicSh2 (d : Byte) : Byte := BitVec.ofNat 8 (magicL d - min (magicL d) 1)

/-- One 256-entry slot of the MagicTable: entry d is `f d` for d in [1,255], and entry 0 is 0 (R116, R117). -/
def magicSlot (f : Byte → Byte) : List Byte :=
  (List.range 256).map fun d => if d = 0 then 0 else f (BitVec.ofNat 8 d)

end Sys2Proof.Machine
end

