-- ==== Sys2Proof/Machine/State.lean ====
section
/-! DEFINITION. The state of the block (R20 to R42), the host's transactions (R248), the reasons a step could stop, and
the state after reset (R42, R240). -/

namespace Sys2Proof.Machine

open Sys2Proof

/-- Why the model stops. `step` never does: no path of it ends in a fault. -/
inductive Fault where
  /-- Raised by `Safety.guardedStep` only, never by `step`: the command or the host's buffer read depends on a cell
  that nothing has written since reset ("A model must treat a read of an unwritten cell as a fault", R38; U5). Safe:
  the hardware goes on with a value the spec does not fix. -/
  | unwrittenRead
deriving DecidableEq, Repr

/-- Why the model gives no meaning. No arm of `exec` uses it: every command of R93 is modelled. -/
inductive Refusal where
  /-- Raised by an arm of `exec` for a command without a meaning yet; none is left. Safe: nothing is claimed of it. -/
  | notModelled (mnemonic : String)
deriving DecidableEq, Repr

/-- A storage cell: the value it holds, and whether a command or host write has written it since reset (R13, R38).
Every cell holds a value; for an unwritten one the model names it at reset (logs 2 and 3, DESIGN CHOICE, unsafe). -/
structure Stored (α : Type) where
  val     : α
  written : Bool
deriving DecidableEq, Repr

/-- The codes 0..4 of STATUS.ERRCODE; 5..15 are never written (R215). -/
inductive ErrCode where
  | noError
  | invalidDivisor
  | divisionByZero
  | illegalCommand
  | bufferRange
deriving DecidableEq, Repr

/-- The host's transactions (R248). A register offset is a number of any size (offsets at 0x100 or above read 0, R32);
a buffer port address is 0..65535 (R61). -/
inductive HostTxn where
  | regRead (off : Nat)
  | regWrite (off : Nat) (v : Word)
  | bufRead (a : BitVec 16)
  | bufWrite (a : BitVec 16) (b : Byte)
  | reset
deriving DecidableEq, Repr

/-- What a read transaction returns to the host (R248). -/
inductive Reply where
  | word (v : Word)
  | byte (b : Byte)
deriving DecidableEq, Repr

/-- The written bytes of BUF, addresses strictly rising; an address that is not listed is unwritten (R38, R42). -/
abbrev Memory := List Host.Cell

/-- The state. `params`, `pending`, `reply` and `draws` are the model's own (logs 1, 4, 7, 9); the rest is R20's. The
ROM slot 3 and ID are constants and have no field (R20, R27; log 14). -/
structure State where
  /-- The construction parameters (R6); nothing writes them (R7). -/
  params  : Params
  /-- V[0..7], W lanes each (R21). -/
  v       : Vector (List (Stored Byte)) 8
  /-- K[0..3], W bits each (R22). -/
  k       : Vector (List (Stored Bool)) 4
  /-- TBL[0], the MagicTable field m (R24); unwritten while MT_VALID = 0. -/
  tblM    : List Byte
  /-- TBL[1], the MagicTable field sh1 (R24). -/
  tblSh1  : List Byte
  /-- TBL[2], the MagicTable field sh2 (R24). -/
  tblSh2  : List Byte
  /-- TBL[4], USER (R28). -/
  user    : List (Stored Byte)
  /-- BUF (R29). -/
  buf     : Memory
  /-- STATUS.MT_VALID (R26, R34). -/
  mtValid : Bool
  /-- STATUS.HALTED (R34, R217). -/
  halted  : Bool
  /-- STATUS.DZ (R34, R222). -/
  dz      : Bool
  /-- STATUS.ERRCODE (R34, R215). -/
  errCode : ErrCode
  /-- CMDCNT (R30). -/
  cmdcnt  : Word
  /-- ERRIDX (R35). -/
  erridx  : Word
  /-- ERRCMD (R36). -/
  errcmd  : Word
  /-- ERRINFO (R37). -/
  errinfo : Word
  /-- The host's transactions still to come, oldest first (R248; log 7). -/
  pending : List HostTxn
  /-- What the last read transaction returned (R248; log 9). -/
  reply   : Option Reply
  /-- How many free values have been drawn (log 4). -/
  draws   : Nat
deriving DecidableEq, Repr

/-- What a meaning and a step answer. -/
abbrev Result := Host.Outcome State Fault Refusal

/-- A block built with parameters `p`, right after reset (R42, R240, R241). The values held by unwritten cells are
the model's: 0 (logs 2 and 3, DESIGN CHOICE, unsafe). -/
def State.resetWith (p : Params) : State where
  params  := p
  v       := Vector.replicate 8 (List.replicate p.w { val := 0, written := false })
  k       := Vector.replicate 4 (List.replicate p.w { val := false, written := false })
  tblM    := List.replicate 256 0
  tblSh1  := List.replicate 256 0
  tblSh2  := List.replicate 256 0
  user    := List.replicate 256 { val := 0, written := false }
  buf     := []
  mtValid := false
  halted  := false
  dz      := false
  errCode := .noError
  cmdcnt  := 0
  erridx  := 0
  errcmd  := 0
  errinfo := 0
  pending := []
  reply   := none
  draws   := 0

/-- The machine right after reset, with the default parameters of R6. -/
def State.reset : State := State.resetWith Params.default

end Sys2Proof.Machine
end

