-- ==== Sys2Proof/Machine/Ops.lean ====
section
/-! DEFINITION. The named operations over registers, tables and BUF; the build (R117, R119); taking an error (R217)
and returning from one (R219). -/

namespace Sys2Proof.Machine

open Sys2Proof

/-! ### Registers -/

/-- Lane `i` of V[r], with its written mark (R9, R38). -/
def State.laneCell (s : State) (r : VReg) (i : Nat) : Stored Byte :=
  (s.v[r]).getD i { val := 0, written := false }

/-- `V[r][i]` (R9). -/
def State.lane (s : State) (r : VReg) (i : Nat) : Byte := (s.laneCell r i).val

/-- Bit `i` of K[c], with its written mark (R9, R38). -/
def State.maskCell (s : State) (c : KReg) (i : Nat) : Stored Bool :=
  (s.k[c]).getD i { val := false, written := false }

/-- `K[c][i]` (R9). -/
def State.maskBit (s : State) (c : KReg) (i : Nat) : Bool := (s.maskCell c i).val

/-- Write all W lanes of V[r], cells with their marks (R9). -/
def State.writeCells (s : State) (r : VReg) (f : Nat → Stored Byte) : State :=
  { s with v := s.v.set r ((List.range s.params.w).map f) }

/-- `V[r] <- f`: all W lanes, each now written (R9, R38). -/
def State.writeV (s : State) (r : VReg) (f : Nat → Byte) : State :=
  s.writeCells r fun i => { val := f i, written := true }

/-- `K[c] <- f`: all W bits, each now written (R22, R38). -/
def State.writeK (s : State) (c : KReg) (f : Nat → Bool) : State :=
  { s with k := s.k.set c ((List.range s.params.w).map fun i => { val := f i, written := true }) }

/-! ### BUF -/

/-- `BUF[a]` if the byte has been written; an unlisted address has no value (R38; log 4). -/
def Memory.read : Memory → Nat → Option Byte
  | [], _ => none
  | (a, b) :: m, x => if a = x then some b else Memory.read m x

/-- `BUF[x] <- b`, keeping the addresses strictly rising. -/
def Memory.write : Memory → Nat → Byte → Memory
  | [], x, b => [(x, b)]
  | (a, c) :: m, x, b =>
    if x < a then (x, b) :: (a, c) :: m
    else if x = a then (x, b) :: m
    else (a, c) :: Memory.write m x b

/-- `MemWrite(x, n, s)` for the n bytes of `bs`: element k goes to BUF[x+k] (R11, R62). -/
def Memory.writeRange : Memory → Nat → List Byte → Memory
  | m, _, [] => m
  | m, x, b :: bs => Memory.writeRange (Memory.write m x b) (x + 1) bs

/-- The canonical form: addresses strictly rising. No entry can equal what an unlisted address reads as, since that is
no value. -/
def Memory.wf : Memory → Bool
  | [] => true
  | [_] => true
  | (a, _) :: (a', b') :: m => a < a' && Memory.wf ((a', b') :: m)

/-- Every listed address is an address of BUF, 0..BUF_SIZE-1 (R66). -/
def Memory.below (m : Memory) (size : Nat) : Bool := m.all fun c => c.1 < size

/-- `addr + size` bytes fit in BUF (R63, R214). -/
def State.fits (s : State) (addr : BitVec 16) (size : Nat) : Bool := addr.toNat + size ≤ s.params.bufSize

/-- What a command moves from BUF[x] into a cell, as the `n`-th draw: the byte, or for an unwritten byte an unwritten
cell holding a free value ("unwritten BUF bytes make unwritten table entries", R192; R190; logs 4 and 6). -/
def State.loadCell (s : State) (x n : Nat) : Stored Byte :=
  match s.buf.read x with
  | some b => { val := b, written := true }
  | none => { val := Config.unwrittenByte n, written := false }

/-! ### The MagicTable -/

/-- The publication of R117 and R121: slots 0, 1 and 2 and MT_VALID together, from no input but the rules. -/
def State.build (s : State) : State :=
  { s with
    tblM := magicSlot magicM
    tblSh1 := magicSlot magicSh1
    tblSh2 := magicSlot magicSh2
    mtValid := true }

/-- The lazy build: only when MT_VALID = 0 (R119). -/
def State.lazyBuild (s : State) : State := if s.mtValid then s else s.build

/-! ### The command counter and errors -/

/-- The command was consumed: CMDCNT + 1 modulo 2^32 (R30). -/
def State.complete (s : State) : State := { s with cmdcnt := s.cmdcnt + 1 }

/-- Error entry for the command word `c`, error `e` and information `x` (R217). Nothing else changes. -/
def State.raiseError (s : State) (c : Word) (e : ErrCode) (x : Word) : State :=
  { s with
    erridx := s.cmdcnt
    errcmd := c
    errinfo := x
    errCode := e
    halted := true
    cmdcnt := s.cmdcnt + 1 }

/-- Error return: HALTED and ERRCODE become 0, nothing else (R219). -/
def State.errorReturn (s : State) : State := { s with halted := false, errCode := .noError }

/-- The block's reset input (R240): R42's values. The parameters are fixed (R7), and what belongs to the host or to
the model (the transactions to come, the last reply, the draws) stays (log 10). -/
def State.resetBlock (s : State) : State :=
  { State.resetWith s.params with pending := s.pending, reply := s.reply, draws := s.draws }

end Sys2Proof.Machine
end

