-- ==== Sys2Proof/Machine/Operands.lean ====
section
/-! DEFINITION. Operand forms and lane functions: table slots (R23, R24, R91), Lookup128, HighBitMask, Blend and WTL
(R130, R132, R134, R136), the multiply-high (R165), the variable shift (R189) and the quotient of a lane (R168). -/

namespace Sys2Proof.Machine

open Sys2Proof

/-- The five table slots (R24). -/
inductive Slot where
  | m
  | sh1
  | sh2
  | bitWidth
  | user
deriving DecidableEq, Repr

/-- The slot a `tsel` field names; 5, 6 and 7 do not exist (R23, R91, R96). -/
def slotOf (tsel : BitVec 3) : Option Slot :=
  match tsel.toNat with
  | 0 => some .m
  | 1 => some .sh1
  | 2 => some .sh2
  | 3 => some .bitWidth
  | 4 => some .user
  | _ => none

/-- Slots 0, 1 and 2 are the MagicTable and need it built (R119). -/
def Slot.isMagic : Slot → Bool
  | .m => true
  | .sh1 => true
  | .sh2 => true
  | .bitWidth => false
  | .user => false

/-- The lazy build of a lookup that names this slot (R119). -/
def State.lazyBuildFor (s : State) (t : Slot) : State := if t.isMagic then s.lazyBuild else s

/-- Entry `j` of USER, with its written mark (R28, R38). -/
def State.userCell (s : State) (j : Nat) : Stored Byte := s.user.getD j { val := 0, written := false }

/-- `TBL[slot][j]` (R9): the one operation that reads a table; slot 3 is the ROM (R27). -/
def State.tableEntry (s : State) (t : Slot) (j : Nat) : Byte :=
  match t with
  | .m => s.tblM.getD j 0
  | .sh1 => s.tblSh1.getD j 0
  | .sh2 => s.tblSh2.getD j 0
  | .bitWidth => bitWidthRom (BitVec.ofNat 8 j)
  | .user => (s.userCell j).val

/-- The first entry of a table half: 0 or 128 (R130). -/
def halfBase : Half → Nat
  | .lo => 0
  | .hi => 128

/-- The low or high half of a 256-entry table (R130). -/
def tableHalf (t : Nat → Byte) (h : Half) : Nat → Byte := fun j => t (halfBase h + j)

/-- `Lookup128(H, x) = H[x[6:0]]` (R130). -/
def lookup128 (h : Nat → Byte) (x : Byte) : Byte := h (x.extractLsb' 0 7).toNat

/-- `HighBitMask(x) = x[7]` (R132). -/
def highBitMask (x : Byte) : Bool := x.getLsbD 7

/-- `Blend` of one lane: b where the mask bit is 1, a where it is 0 (R134). -/
def blendLane (mask : Bool) (a b : Byte) : Byte := if mask then b else a

/-- `WTL(T, index)` of one lane, by the algorithm of R136. -/
def wideLookup (t : Nat → Byte) (x : Byte) : Byte :=
  blendLane (highBitMask x) (lookup128 (tableHalf t .lo) x) (lookup128 (tableHalf t .hi) x)

/-- `mulhi8(a, b)`: the upper byte of the exact 16-bit product (R165). -/
def mulhi8 (a b : Byte) : Byte := ((a.setWidth 16 * b.setWidth 16) >>> 8).extractLsb' 0 8

/-- A logical right shift by a lane; an amount of 8 or more gives 0 (R189). -/
def shiftRightLane (a s : Byte) : Byte := if s.toNat < 8 then a >>> s.toNat else 0

/-- The finish of R168 on the gathered triple. -/
def quotientFinish (n m sh1 sh2 : Byte) : Byte :=
  let t1 := mulhi8 m n
  let u := n - t1
  let sum := t1 + (u >>> sh1.toNat)
  sum >>> sh2.toNat

/-- The quotient of one lane: gather the triple by three wide lookups indexed by d (R167), then finish (R168). -/
def State.quotientLane (s : State) (n d : Byte) : Byte :=
  quotientFinish n (wideLookup (s.tableEntry .m) d) (wideLookup (s.tableEntry .sh1) d)
    (wideLookup (s.tableEntry .sh2) d)

/-- The lowest lane of V[r] that holds 0, if there is one (R169, R172). -/
def State.firstZeroLane (s : State) (r : VReg) : Option Nat :=
  (List.range s.params.w).find? fun i => s.lane r i == 0

/-- A two-source lane command: `V[rd][i] <- f V[ra][i] V[rb][i]`, every source read first (R12). -/
def State.mapLanes2 (s : State) (f : Byte → Byte → Byte) (rd ra rb : VReg) : State :=
  s.writeV rd fun i => f (s.lane ra i) (s.lane rb i)

end Sys2Proof.Machine
end

