-- ==== Sys2Proof/Machine/Lanes.lean ====
section
/-! DEFINITION. The supporting lane commands NOP, VSPLAT, VADD, VSUB, VSRLV (R185 to R189) and the buffer commands VLD,
VST, TLD (R190 to R192). -/

namespace Sys2Proof.Machine

open Sys2Proof

/-- NOP (R185). -/
def execNop (s : State) : Result := .next s.complete

/-- VSPLAT rd, imm8 (R186). -/
def execVsplat (rd : VReg) (imm8 : BitVec 8) (s : State) : Result :=
  .next (s.writeV rd fun _ => imm8).complete

/-- VADD rd, ra, rb: modulo 256 (R187). -/
def execVadd (rd ra rb : VReg) (s : State) : Result :=
  .next (s.mapLanes2 (fun a b => a + b) rd ra rb).complete

/-- VSUB rd, ra, rb: ra - rb modulo 256 (R188). -/
def execVsub (rd ra rb : VReg) (s : State) : Result :=
  .next (s.mapLanes2 (fun a b => a - b) rd ra rb).complete

/-- VSRLV rd, ra, rb: ra shifted right by rb (R189). -/
def execVsrlv (rd ra rb : VReg) (s : State) : Result :=
  .next (s.mapLanes2 shiftRightLane rd ra rb).complete

/-- VLD rd, addr: lane i from BUF[addr + i] (R190). An unwritten byte leaves its lane unwritten (log 6). -/
def execVld (rd : VReg) (addr : BitVec 16) (s : State) : Result :=
  if s.fits addr s.params.w then
    let s1 := s.writeCells rd fun i => s.loadCell (addr.toNat + i) (s.draws + i)
    .next { s1 with draws := s.draws + s.params.w }.complete
  else
    .next (s.raiseError (encode (.vld rd addr)) .bufferRange (addr.setWidth 32))

/-- VST rs, addr: BUF[addr + i] <- V[rs][i] (R191). -/
def execVst (rs : VReg) (addr : BitVec 16) (s : State) : Result :=
  if s.fits addr s.params.w then
    .next { s with
      buf := s.buf.writeRange addr.toNat ((List.range s.params.w).map fun i => s.lane rs i) }.complete
  else
    .next (s.raiseError (encode (.vst rs addr)) .bufferRange (addr.setWidth 32))

/-- TLD addr: TBL[4][j] <- BUF[addr + j] (R192). An unwritten byte makes an unwritten entry. -/
def execTld (addr : BitVec 16) (s : State) : Result :=
  if s.fits addr 256 then
    .next { s with
      user := (List.range 256).map fun j => s.loadCell (addr.toNat + j) (s.draws + j)
      draws := s.draws + 256 }.complete
  else
    .next (s.raiseError (encode (.tld addr)) .bufferRange (addr.setWidth 32))

end Sys2Proof.Machine
end

