-- ==== Sys2Proof/Machine/Magic.lean ====
section
/-! DEFINITION. The magic-constant generator's command: BUILD (R117, R118). -/

namespace Sys2Proof.Machine

open Sys2Proof

/-- The smallest requested divisor outside [1,255]: 0 if lo = 0, else max(lo, 256) (R118). -/
def firstBadDivisor (lo : BitVec 9) : Word :=
  if lo.toNat = 0 then 0 else BitVec.ofNat 32 (max lo.toNat 256)

/-- BUILD lo, hi (R117), with the checks of R118 in their order. -/
def execBuild (lo hi : BitVec 9) (s : State) : Result :=
  if hi.toNat < lo.toNat then
    .next (s.raiseError (encode (.build lo hi)) .illegalCommand 0)
  else if lo.toNat = 0 ∨ 255 < hi.toNat then
    .next (s.raiseError (encode (.build lo hi)) .invalidDivisor (firstBadDivisor lo))
  else if ¬(lo.toNat = 1 ∧ hi.toNat = 255) then
    .next (s.raiseError (encode (.build lo hi)) .illegalCommand 0)
  else
    .next s.build.complete

end Sys2Proof.Machine
end

