-- ==== Sys2Proof/Machine/Flags.lean ====
section
/-! DEFINITION. STATUS and its flags: the word the host reads (R34), its write-1-to-clear (R34), and DZ (R222). The
block has no condition codes (R40). MT_VALID is set by the build and HALTED by error entry (Machine/Ops.lean). -/

namespace Sys2Proof.Machine

open Sys2Proof

/-- The ERRCODE value of an error (R215). -/
def ErrCode.bits : ErrCode → BitVec 4
  | .noError => 0
  | .invalidDivisor => 1
  | .divisionByZero => 2
  | .illegalCommand => 3
  | .bufferRange => 4

/-- STATUS as the host reads it: ERRCODE at [7:4], 0 at [3], DZ, HALTED, MT_VALID (R34). -/
def State.statusWord (s : State) : Word :=
  0#24 ++ s.errCode.bits ++ 0#1 ++ BitVec.ofBool s.dz ++ BitVec.ofBool s.halted ++ BitVec.ofBool s.mtValid

/-- DZ becomes 0 (R34, R222). -/
def State.clearDz (s : State) : State := { s with dz := false }

/-- A host write of `val` to STATUS: bit 1 clears HALTED and ERRCODE, bit 2 clears DZ, the rest is ignored (R34). A write
with bit 1 while HALTED = 0 "does nothing to HALTED or ERRCODE". -/
def State.writeStatus (s : State) (val : Word) : State :=
  let s1 := if val.getLsbD 1 && s.halted then s.errorReturn else s
  if val.getLsbD 2 then s1.clearDz else s1

/-- The DZ event of a LENIENT QUOTIENT: set when `zero`, else as it was, since DZ is sticky (R171, R222). -/
def State.noteDz (s : State) (zero : Bool) : State := { s with dz := s.dz || zero }

end Sys2Proof.Machine
end

