-- ==== Sys2Proof/Machine/Quotient.lean ====
section
/-! DEFINITION. The quotient engine's commands: MULHI (R166) and QUOTIENT (R169) with both zero-divisor policies (R171,
R172). -/

namespace Sys2Proof.Machine

open Sys2Proof

/-- MULHI rd, ra, rb (R166). -/
def execMulhi (rd ra rb : VReg) (s : State) : Result :=
  .next (s.mapLanes2 mulhi8 rd ra rb).complete

/-- The lanes of QUOTIENT: the lazy build, then every lane (R169). -/
def State.quotientLanes (s : State) (rd ra rb : VReg) : State :=
  s.lazyBuild.mapLanes2 s.lazyBuild.quotientLane rd ra rb

/-- QUOTIENT rd, ra, rb (R169): under STRICT a zero divisor lane raises DivisionByZero before anything is written
(R172); under LENIENT it sets DZ (R171). -/
def execQuotient (rd ra rb : VReg) (s : State) : Result :=
  match s.params.policy, s.firstZeroLane rb with
  | .strict, some i =>
    .next (s.raiseError (encode (.quotient rd ra rb)) .divisionByZero (BitVec.ofNat 32 i))
  | .strict, none => .next (s.quotientLanes rd ra rb).complete
  | .lenient, zero => .next ((s.quotientLanes rd ra rb).noteDz zero.isSome).complete

end Sys2Proof.Machine
end

