-- ==== Sys2Proof/Machine/Tables.lean ====
section
/-! DEFINITION. The table-lookup commands: LOOKUP128, HIGHBITMASK, BLEND, WTL (R131, R133, R135, R137) and BITWIDTH
(R153). -/

namespace Sys2Proof.Machine

open Sys2Proof

/-- LOOKUP128 rd, ra, tsel, half (R131). -/
def execLookup128 (rd ra : VReg) (tsel : BitVec 3) (half : Half) (s : State) : Result :=
  match slotOf tsel with
  | none => .next (s.raiseError (encode (.lookup128 rd ra tsel half)) .illegalCommand 0)
  | some t =>
    let s1 := s.lazyBuildFor t
    .next (s1.writeV rd fun i => lookup128 (tableHalf (s1.tableEntry t) half) (s.lane ra i)).complete

/-- HIGHBITMASK kd, ra (R133). -/
def execHighbitmask (kd : KReg) (ra : VReg) (s : State) : Result :=
  .next (s.writeK kd fun i => highBitMask (s.lane ra i)).complete

/-- BLEND rd, kc, ra, rb (R135). -/
def execBlend (rd ra rb : VReg) (kc : KReg) (s : State) : Result :=
  .next (s.writeV rd fun i => blendLane (s.maskBit kc i) (s.lane ra i) (s.lane rb i)).complete

/-- WTL rd, ra, tsel (R137). -/
def execWtl (rd ra : VReg) (tsel : BitVec 3) (s : State) : Result :=
  match slotOf tsel with
  | none => .next (s.raiseError (encode (.wtl rd ra tsel)) .illegalCommand 0)
  | some t =>
    let s1 := s.lazyBuildFor t
    .next (s1.writeV rd fun i => wideLookup (s1.tableEntry t) (s.lane ra i)).complete

/-- BITWIDTH rd, ra (R153): a wide lookup of the ROM, so never a lazy build. -/
def execBitwidth (rd ra : VReg) (s : State) : Result :=
  .next (s.writeV rd fun i => wideLookup (s.tableEntry .bitWidth) (s.lane ra i)).complete

end Sys2Proof.Machine
end

