-- ==== Sys2Proof/Machine/Dispatch.lean ====
section
/-! DEFINITION. The meaning of every command: one arm per constructor of Instr (R93). -/

namespace Sys2Proof.Machine

open Sys2Proof

def exec (i : Instr) (s : State) : Host.Outcome State Fault Refusal :=
  match i with
  | .nop => Sys2Proof.Machine.execNop s
  | .build lo hi => Sys2Proof.Machine.execBuild lo hi s
  | .lookup128 rd ra tsel half => Sys2Proof.Machine.execLookup128 rd ra tsel half s
  | .highbitmask kd ra => Sys2Proof.Machine.execHighbitmask kd ra s
  | .blend rd ra rb kc => Sys2Proof.Machine.execBlend rd ra rb kc s
  | .wtl rd ra tsel => Sys2Proof.Machine.execWtl rd ra tsel s
  | .bitwidth rd ra => Sys2Proof.Machine.execBitwidth rd ra s
  | .mulhi rd ra rb => Sys2Proof.Machine.execMulhi rd ra rb s
  | .vadd rd ra rb => Sys2Proof.Machine.execVadd rd ra rb s
  | .vsub rd ra rb => Sys2Proof.Machine.execVsub rd ra rb s
  | .vsrlv rd ra rb => Sys2Proof.Machine.execVsrlv rd ra rb s
  | .quotient rd ra rb => Sys2Proof.Machine.execQuotient rd ra rb s
  | .vsplat rd imm8 => Sys2Proof.Machine.execVsplat rd imm8 s
  | .vld rd addr => Sys2Proof.Machine.execVld rd addr s
  | .vst rs addr => Sys2Proof.Machine.execVst rs addr s
  | .tld addr => Sys2Proof.Machine.execTld addr s

end Sys2Proof.Machine
end

