-- ==== Sys2Proof/Machine/HostPort.lean ====
section
/-! DEFINITION. The host's side: the register map (R32 to R39), issuing a command (R39, R218), and the transactions of
R248. Step only calls `transact`. -/

namespace Sys2Proof.Machine

open Sys2Proof

/-- ID, a constant of the parameters: BUFM1, 0, POLICY, LOG2W, VERSION = 0x01 (R33). -/
def idWord (p : Params) : Word :=
  BitVec.ofNat 16 (p.bufSize - 1) ++ 0#3 ++ p.policy.bit ++ p.lanes.log2 ++ 1#8

/-- The offset of STATUS (R32). -/
def statusOffset : Nat := 0x04

/-- The offset of CMD (R32). -/
def cmdOffset : Nat := 0x18

/-- What the host reads at offset `off` (R32). CMD, reserved, unaligned and far offsets read 0. -/
def State.regValue (s : State) (off : Nat) : Word :=
  match off with
  | 0x00 => idWord s.params
  | 0x04 => s.statusWord
  | 0x08 => s.cmdcnt
  | 0x0C => s.erridx
  | 0x10 => s.errcmd
  | 0x14 => s.errinfo
  | _ => 0

/-- A command word written to CMD: discarded while halted (R218), else executed whole (R39); a word that is no
command raises IllegalCommand (R94, R95, R103). -/
def issue (w : Word) (s : State) : Result :=
  if s.halted then .next s
  else
    match decode w with
    | .ok i => exec i s
    | .error _ => .next (s.raiseError w .illegalCommand 0)

/-- RegWrite(off, val): W1C at STATUS, a command at CMD, ignored elsewhere (R32, R248). -/
def hostRegWrite (off : Nat) (val : Word) (s : State) : Result :=
  if off = statusOffset then .next (s.writeStatus val)
  else if off = cmdOffset then issue val s
  else .next s

/-- RegRead(off): the value goes to the host; no side effect (R65, R248). -/
def hostRegRead (off : Nat) (s : State) : Result :=
  .next { s with reply := some (.word (s.regValue off)) }

/-- BufRead(a): BUF[a] if a < BUF_SIZE, else 0; an unwritten byte gives a free value (R38, R248; log 4). -/
def hostBufRead (a : BitVec 16) (s : State) : Result :=
  if a.toNat < s.params.bufSize then
    .next { s with
      reply := some (.byte (s.loadCell a.toNat s.draws).val)
      draws := s.draws + 1 }
  else
    .next { s with reply := some (.byte 0) }

/-- BufWrite(a, b): BUF[a] <- b if a < BUF_SIZE, else ignored (R248). -/
def hostBufWrite (a : BitVec 16) (b : Byte) (s : State) : Result :=
  if a.toNat < s.params.bufSize then .next { s with buf := s.buf.write a.toNat b }
  else .next s

/-- One host transaction (R248). -/
def transact (t : HostTxn) (s : State) : Result :=
  match t with
  | .regRead off => hostRegRead off s
  | .regWrite off val => hostRegWrite off val s
  | .bufRead a => hostBufRead a s
  | .bufWrite a b => hostBufWrite a b s
  | .reset => .next s.resetBlock

/-- The first of the host's transactions to come is carried out (R68, R248); with none to come the block "is idle and
holds all state" (R230). -/
def nextTransaction (s : State) : Result :=
  match s.pending with
  | [] => .next s
  | t :: rest => transact t { s with pending := rest }

end Sys2Proof.Machine
end

