-- ==== Sys2Proof/Machine/Step.lean ====
section
/-! DEFINITION. One step: the host's next transaction (R248). The block has no program counter: the next command is the
next word the host writes to CMD (R31). -/

namespace Sys2Proof.Machine

open Sys2Proof

/-- One step of the block and its host. -/
def step (s : State) : Host.Outcome State Fault Refusal := nextTransaction s

/-- `s` with the command word `w` as the host's next write to CMD, and the block able to take it: not halted, as the
host's write of STATUS bit 1 leaves it (R219; log 8). A word has 32 bits, so nothing lies above `nbits`. -/
def State.withFetchWord (s : State) (nbits w : Nat) : State :=
  { s.errorReturn with
    pending := .regWrite cmdOffset (BitVec.ofNat 32 (w % 2 ^ nbits)) :: s.pending }

end Sys2Proof.Machine
end

