-- ==== Sys2Proof/Safety.lean ====
section
/-! DEFINITION. The terms claims are stated in: what it is to read an unwritten cell (R38) and the step that faults
there; the invariant of the machine; completing a command, entering an error, and the frames of each; agreement of
two states on everything that has been written. -/

namespace Sys2Proof.Safety

open Sys2Proof Sys2Proof.Machine

/-! ### Unwritten cells -/

/-- Every lane of V[r] has been written (R38). -/
def vWritten (s : State) (r : VReg) : Bool := (List.range s.params.w).all fun i => (s.laneCell r i).written

/-- Every bit of K[c] has been written (R38). -/
def kWritten (s : State) (c : KReg) : Bool := (List.range s.params.w).all fun i => (s.maskCell c i).written

/-- Every USER entry that some lane of V[ra] selects has been written, `sel` giving the entry for a lane value (R137:
"a lane faults in a model only if the one USER entry it selects is unwritten"). -/
def userWritten (s : State) (ra : VReg) (sel : Byte → Nat) : Bool :=
  (List.range s.params.w).all fun i => (s.userCell (sel (s.lane ra i))).written

/-- BLEND reads, lane by lane, the mask bit and the selected operand's lane only (R135). -/
def blendWritten (s : State) (ra rb : VReg) (kc : KReg) : Bool :=
  kWritten s kc && (List.range s.params.w).all fun i =>
    (s.laneCell (if s.maskBit kc i then rb else ra) i).written

/-- The command's result depends on an unwritten cell (R38). A command that raises IllegalCommand or BufferRange from
its own word depends on none. VLD and TLD hand the unwritten mark on instead (R190, R192; logs 6 and 15). -/
def readsUnwritten (i : Instr) (s : State) : Bool :=
  match i with
  | .nop => false
  | .build _ _ => false
  | .lookup128 _ ra tsel half =>
    match slotOf tsel with
    | none => false
    | some .user =>
      !(vWritten s ra && userWritten s ra fun x => halfBase half + (x.extractLsb' 0 7).toNat)
    | some _ => !vWritten s ra
  | .highbitmask _ ra => !vWritten s ra
  | .blend _ ra rb kc => !blendWritten s ra rb kc
  | .wtl _ ra tsel =>
    match slotOf tsel with
    | none => false
    | some .user => !(vWritten s ra && userWritten s ra fun x => x.toNat)
    | some _ => !vWritten s ra
  | .bitwidth _ ra => !vWritten s ra
  | .mulhi _ ra rb => !(vWritten s ra && vWritten s rb)
  | .vadd _ ra rb => !(vWritten s ra && vWritten s rb)
  | .vsub _ ra rb => !(vWritten s ra && vWritten s rb)
  | .vsrlv _ ra rb => !(vWritten s ra && vWritten s rb)
  | .quotient _ ra rb => !(vWritten s ra && vWritten s rb)
  | .vsplat _ _ => false
  | .vld _ _ => false
  | .vst rs addr => s.fits addr s.params.w && !vWritten s rs
  | .tld _ => false

/-- The host's next transaction reads an unwritten cell: a command that does, or a BufRead of an unwritten byte. -/
def nextReadsUnwritten (s : State) : Bool :=
  match s.pending with
  | .regWrite off w :: _ =>
    if off = cmdOffset ∧ s.halted = false then
      match decode w with
      | .ok i => readsUnwritten i s
      | .error _ => false
    else false
  | .bufRead a :: _ => decide (a.toNat < s.params.bufSize) && (s.buf.read a.toNat).isNone
  | _ => false

/-- The step R38 asks of a model: a read of an unwritten cell is a fault, everything else is `step` (log 5). -/
def guardedStep (s : State) : Result :=
  if nextReadsUnwritten s then .fault .unwrittenRead else step s

/-! ### The invariant -/

/-- Slots 0, 1 and 2 hold what a build publishes (R25, R117). -/
def MagicPublished (s : State) : Prop :=
  s.tblM = magicSlot magicM ∧ s.tblSh1 = magicSlot magicSh1 ∧ s.tblSh2 = magicSlot magicSh2

/-- What every reachable state satisfies. -/
structure Invariant (s : State) : Prop where
  /-- R6: a legal construction. -/
  legal : s.params.legal = true
  /-- R21: each vector register has W lanes. -/
  lanes : ∀ r : VReg, (s.v[r]).length = s.params.w
  /-- R22: each mask register has W bits. -/
  masks : ∀ c : KReg, (s.k[c]).length = s.params.w
  /-- R23: each slot has 256 entries. -/
  slots : s.tblM.length = 256 ∧ s.tblSh1.length = 256 ∧ s.tblSh2.length = 256 ∧ s.user.length = 256
  /-- R25, R26: MT_VALID = 1 only with the whole MagicTable published. -/
  magic : s.mtValid = true → MagicPublished s
  /-- BUF is in its canonical form. -/
  bufWf : s.buf.wf = true
  /-- R66: BUF has the addresses 0..BUF_SIZE-1 and nothing else. -/
  bufBelow : s.buf.below s.params.bufSize = true
  /-- R34: ERRCODE is 0 when HALTED = 0, and an error has a code. -/
  haltedCode : s.halted = true ↔ s.errCode ≠ .noError
  /-- R34, R171: DZ is set only under LENIENT. -/
  dzLenient : s.dz = true → s.params.policy = .lenient

/-! ### Frames -/

/-- What belongs to the construction and the host: no command changes it. -/
structure HostKept (s t : State) : Prop where
  params  : t.params = s.params
  pending : t.pending = s.pending
  reply   : t.reply = s.reply

/-- A command completed: CMDCNT moved on by one (R30) and no error register, HALTED or ERRCODE changed. -/
structure Completed (s t : State) : Prop extends HostKept s t where
  cmdcnt  : t.cmdcnt = s.cmdcnt + 1
  halted  : t.halted = s.halted
  errCode : t.errCode = s.errCode
  erridx  : t.erridx = s.erridx
  errcmd  : t.errcmd = s.errcmd
  errinfo : t.errinfo = s.errinfo

/-- Every vector register but `rd` is as before. -/
def VKeptBut (rd : VReg) (s t : State) : Prop := ∀ r : VReg, r ≠ rd → t.v[r] = s.v[r]

/-- Every mask register but `kd` is as before. -/
def KKeptBut (kd : KReg) (s t : State) : Prop := ∀ c : KReg, c ≠ kd → t.k[c] = s.k[c]

/-- Slots 0 to 2 and MT_VALID are as before. -/
def MagicKept (s t : State) : Prop :=
  t.tblM = s.tblM ∧ t.tblSh1 = s.tblSh1 ∧ t.tblSh2 = s.tblSh2 ∧ t.mtValid = s.mtValid

/-- Every byte of BUF reads as before. -/
def BufKept (s t : State) : Prop := ∀ a : Nat, t.buf.read a = s.buf.read a

/-- A lazy build has happened if it was due, and nothing else to slots 0 to 2 (R119). -/
def LazilyBuilt (s t : State) : Prop :=
  t.mtValid = true ∧ (s.mtValid = true → MagicKept s t) ∧ (s.mtValid = false → MagicPublished t)

/-- The frame of a command that writes V[rd], with the MagicTable, DZ and the draws left to the claim: it completed, and
every other vector register, every mask register, slot 4 and every byte of BUF are as before. -/
structure WroteV (rd : VReg) (s t : State) : Prop extends Completed s t where
  vs    : VKeptBut rd s t
  ks    : t.k = s.k
  user  : t.user = s.user
  buf   : BufKept s t

/-- The frame of a command that writes V[rd] and nothing else: every table, MT_VALID, DZ and the draws as before too. -/
structure OnlyWroteV (rd : VReg) (s t : State) : Prop extends WroteV rd s t where
  magic : MagicKept s t
  dz    : t.dz = s.dz
  draws : t.draws = s.draws

/-- The frame of a command that writes K[kd] and nothing else. -/
structure OnlyWroteK (kd : KReg) (s t : State) : Prop extends Completed s t where
  vs    : t.v = s.v
  ks    : KKeptBut kd s t
  user  : t.user = s.user
  buf   : BufKept s t
  magic : MagicKept s t
  dz    : t.dz = s.dz
  draws : t.draws = s.draws

/-- V[rd] has `w` lanes in `t`, and lane `i` is `f i` as a number and has been written. -/
def LanesAre (t : State) (rd : VReg) (w : Nat) (f : Nat → Nat) : Prop :=
  (t.v[rd]).length = w ∧
    ∀ i, i < w → (t.lane rd i).toNat = f i ∧ (t.laneCell rd i).written = true

/-- K[kd] has `w` bits in `t`, and bit `i` is `f i` and has been written. -/
def MaskIs (t : State) (kd : KReg) (w : Nat) (f : Nat → Bool) : Prop :=
  (t.k[kd]).length = w ∧
    ∀ i, i < w → t.maskBit kd i = f i ∧ (t.maskCell kd i).written = true

/-- BUF[x] as what a command moves from it: a written byte arrives as it is, an unwritten one as an unwritten cell. -/
def MovedFrom (s : State) (x : Nat) (c : Stored Byte) : Prop :=
  match s.buf.read x with
  | some b => c = { val := b, written := true }
  | none => c.written = false

/-- Error entry for the command word `c` with code `e` and information `x` (R217): the five error registers and CMDCNT
as the rule says, and every other field as before. -/
structure ErrorEntered (c : Word) (e : ErrCode) (x : Word) (s t : State) : Prop extends HostKept s t where
  erridx  : t.erridx = s.cmdcnt
  errcmd  : t.errcmd = c
  errinfo : t.errinfo = x
  errCode : t.errCode = e
  halted  : t.halted = true
  cmdcnt  : t.cmdcnt = s.cmdcnt + 1
  vs      : t.v = s.v
  ks      : t.k = s.k
  magic   : MagicKept s t
  user    : t.user = s.user
  buf     : t.buf = s.buf
  dz      : t.dz = s.dz
  draws   : t.draws = s.draws

/-- A word with opcode `op` and a 1 in one of the bits of `zeros` raises IllegalCommand with ERRINFO = 0, whatever the
state of a block that is not halted (R95). -/
def ReservedBitsRaise (op : BitVec 6) (zeros : Word) : Prop :=
  ∀ (w : Word) (s : State), opField w = op → w &&& zeros ≠ 0 → s.halted = false →
    ∃ t, issue w s = .next t ∧ ErrorEntered w .illegalCommand 0 s t

/-! ### Who writes what (R43) -/

/-- The vector register a command writes, by R43's table. -/
def writesV : Instr → Option VReg
  | .nop => none
  | .build _ _ => none
  | .lookup128 rd _ _ _ => some rd
  | .highbitmask _ _ => none
  | .blend rd _ _ _ => some rd
  | .wtl rd _ _ => some rd
  | .bitwidth rd _ => some rd
  | .mulhi rd _ _ => some rd
  | .vadd rd _ _ => some rd
  | .vsub rd _ _ => some rd
  | .vsrlv rd _ _ => some rd
  | .quotient rd _ _ => some rd
  | .vsplat rd _ => some rd
  | .vld rd _ => some rd
  | .vst _ _ => none
  | .tld _ => none

/-- The mask register a command writes: HIGHBITMASK's only (R22, R43). -/
def writesK : Instr → Option KReg
  | .highbitmask kd _ => some kd
  | _ => none

/-- The command stores to BUF[x]: VST's W bytes only (R43, R191). -/
def storesTo (i : Instr) (s : State) (x : Nat) : Prop :=
  match i with
  | .vst _ addr => addr.toNat ≤ x ∧ x < addr.toNat + s.params.w
  | _ => False

/-- The command needs the MagicTable: QUOTIENT, and LOOKUP128 and WTL of slots 0, 1 and 2 (R119). -/
def needsMagic : Instr → Bool
  | .quotient _ _ _ => true
  | .lookup128 _ _ tsel _ => tsel.toNat ≤ 2
  | .wtl _ _ tsel => tsel.toNat ≤ 2
  | _ => false

/-- Commands one after another, each on the state the one before leaves (R39). -/
def execAll : List Instr → State → Result
  | [], s => .next s
  | i :: is, s =>
    match exec i s with
    | .next t => execAll is t
    | .fault r => .fault r
    | .refused r => .refused r

/-! ### Agreement on what is written -/

/-- Two cells carry the same mark, and the same value if written. -/
def CellsAgree {α : Type} (a b : Stored α) : Prop := a.written = b.written ∧ (a.written = true → a.val = b.val)

/-- The two states differ at most in the values held by unwritten cells: lanes, mask bits, USER entries, and slots 0
to 2 while MT_VALID = 0. -/
structure AgreeOnWritten (s t : State) : Prop extends HostKept s t where
  vs      : ∀ (r : VReg) (i : Nat), i < s.params.w → CellsAgree (s.laneCell r i) (t.laneCell r i)
  ks      : ∀ (c : KReg) (i : Nat), i < s.params.w → CellsAgree (s.maskCell c i) (t.maskCell c i)
  user    : ∀ j : Nat, j < 256 → CellsAgree (s.userCell j) (t.userCell j)
  mtValid : s.mtValid = t.mtValid
  magic   : s.mtValid = true → s.tblM = t.tblM ∧ s.tblSh1 = t.tblSh1 ∧ s.tblSh2 = t.tblSh2
  buf     : s.buf = t.buf
  halted  : s.halted = t.halted
  dz      : s.dz = t.dz
  errCode : s.errCode = t.errCode
  cmdcnt  : s.cmdcnt = t.cmdcnt
  erridx  : s.erridx = t.erridx
  errcmd  : s.errcmd = t.errcmd
  errinfo : s.errinfo = t.errinfo
  draws   : s.draws = t.draws

end Sys2Proof.Safety
end

