-- ==== Sys2Proof/Certificates/Slice0/Obligations.lean ====
section
/-! DEFINITION. The statements for the provers, from the numbered rules of spec/. -/

open Sys2Proof Sys2Proof.Machine Sys2Proof.Safety

/-! ### Encoding -/

/-- Every command's word decodes to that command, every operand at every value its field admits (R82 to R93). -/
def Obligations.DecodeOfEncodeIsTheCommand : Prop :=
  ∀ i : Instr, decode (encode i) = .ok i

/-- R103: a word either decodes to exactly one command, whose word it is, and is executed as that command, or raises
IllegalCommand. -/
def Obligations.EveryWordIsOneCommandOrIllegal : Prop :=
  (∀ w : Word,
    (∃ i, decode w = .ok i ∧ encode i = w ∧ (∀ j, encode j = w → j = i) ∧
      ∀ s : State, s.halted = false → issue w s = exec i s) ∨
    ((∀ i, encode i ≠ w) ∧
      ∀ s : State, s.halted = false → ∃ t, issue w s = .next t ∧ ErrorEntered w .illegalCommand 0 s t))

/-- R93's two mask columns: a word decodes as a mnemonic exactly when (word AND mask) = match. -/
def Obligations.DecodesExactlyByMaskAndMatch : Prop :=
  ∀ w : Word,
    (decode w = .ok .nop ↔ w &&& 0xFFFFFFFF = 0x00000000) ∧
    ((∃ lo hi, decode w = .ok (.build lo hi)) ↔ w &&& 0xFFFC0000 = 0x04000000) ∧
    ((∃ rd ra ts h, decode w = .ok (.lookup128 rd ra ts h)) ↔ w &&& 0xFC00FFFF = 0x08000000) ∧
    ((∃ kd ra, decode w = .ok (.highbitmask kd ra)) ↔ w &&& 0xFE0FFFFF = 0x0C000000) ∧
    ((∃ rd ra rb kc, decode w = .ok (.blend rd ra rb kc)) ↔ w &&& 0xFC007FFF = 0x10000000) ∧
    ((∃ rd ra ts, decode w = .ok (.wtl rd ra ts)) ↔ w &&& 0xFC01FFFF = 0x14000000) ∧
    ((∃ rd ra, decode w = .ok (.bitwidth rd ra)) ↔ w &&& 0xFC0FFFFF = 0x18000000) ∧
    ((∃ rd ra rb, decode w = .ok (.mulhi rd ra rb)) ↔ w &&& 0xFC01FFFF = 0x1C000000) ∧
    ((∃ rd ra rb, decode w = .ok (.vadd rd ra rb)) ↔ w &&& 0xFC01FFFF = 0x20000000) ∧
    ((∃ rd ra rb, decode w = .ok (.vsub rd ra rb)) ↔ w &&& 0xFC01FFFF = 0x24000000) ∧
    ((∃ rd ra rb, decode w = .ok (.vsrlv rd ra rb)) ↔ w &&& 0xFC01FFFF = 0x28000000) ∧
    ((∃ rd ra rb, decode w = .ok (.quotient rd ra rb)) ↔ w &&& 0xFC01FFFF = 0x2C000000) ∧
    ((∃ rd imm, decode w = .ok (.vsplat rd imm)) ↔ w &&& 0xFC7FFF00 = 0x30000000) ∧
    ((∃ rd a, decode w = .ok (.vld rd a)) ↔ w &&& 0xFC7F0000 = 0x34000000) ∧
    ((∃ rs a, decode w = .ok (.vst rs a)) ↔ w &&& 0xFC7F0000 = 0x38000000) ∧
    ((∃ a, decode w = .ok (.tld a)) ↔ w &&& 0xFFFF0000 = 0x3C000000)

/-- R94: every reserved opcode raises IllegalCommand; opcodes 0x00..0x0F are the assigned ones. -/
def Obligations.ReservedOpcodesRaiseIllegalCommand : Prop :=
  ∀ (w : Word) (s : State), 0x10 ≤ (opField w).toNat → s.halted = false →
    ∃ t, issue w s = .next t ∧ ErrorEntered w .illegalCommand 0 s t

/-- R104's worked encodings, all of them, with `build 0, 255` raising InvalidDivisor. -/
def Obligations.WorkedEncodingsDecode : Prop :=
  decode 0x00000000 = .ok .nop ∧
  decode 0x040002FF = .ok (.build 1 255) ∧
  decode 0x040000FF = .ok (.build 0 255) ∧
  (∀ s : State, ∃ t, exec (.build 0 255) s = .next t ∧ ErrorEntered 0x040000FF .invalidDivisor 0 s t) ∧
  decode 0x08870000 = .ok (.lookup128 1 0 3 .hi) ∧
  decode 0x0D300000 = .ok (.highbitmask 2 3) ∧
  decode 0x12268000 = .ok (.blend 4 2 3 1) ∧
  decode 0x15100000 = .ok (.wtl 2 1 0) ∧
  decode 0x1AE00000 = .ok (.bitwidth 5 6) ∧
  decode 0x1D020000 = .ok (.mulhi 2 0 1) ∧
  decode 0x2D020000 = .ok (.quotient 2 0 1) ∧
  decode 0x31800008 = .ok (.vsplat 3 8) ∧
  decode 0x34000040 = .ok (.vld 0 0x0040) ∧
  decode 0x39000080 = .ok (.vst 2 0x0080) ∧
  decode 0x3C000200 = .ok (.tld 0x0200)

/-! ### The commands: encoding, effect and frame, errors -/

/-- R185: NOP is the word 0, changes CMDCNT only, and any other word with its opcode raises IllegalCommand. -/
def Obligations.NopChangesOnlyCmdcnt : Prop :=
  decode (formatN 0x00) = .ok .nop ∧ formatN 0x00 = 0x00000000 ∧
  ReservedBitsRaise 0x00 0x03FFFFFF ∧
  ∀ s : State, exec .nop s = .next { s with cmdcnt := s.cmdcnt + 1 }

/-- R117 and R118: BUILD's request checks in their order, and the publication of all three slots with MT_VALID. The
entries are R111 to R114's m, sh1 and sh2, and entry 0 is 0 (R116). -/
def Obligations.BuildChecksThenPublishes : Prop :=
  (∀ lo hi, decode (formatB 0x01 lo hi) = .ok (.build lo hi)) ∧
  ReservedBitsRaise 0x01 0x03FC0000 ∧
  ∀ (lo hi : BitVec 9) (s : State), ∃ t, exec (.build lo hi) s = .next t ∧
    if lo.toNat > hi.toNat then ErrorEntered (encode (.build lo hi)) .illegalCommand 0 s t
    else if lo.toNat = 0 ∨ hi.toNat > 255 then
      ∃ x : Word, ErrorEntered (encode (.build lo hi)) .invalidDivisor x s t ∧
        x.toNat = if lo.toNat = 0 then 0 else max lo.toNat 256
    else if lo.toNat = 1 ∧ hi.toNat = 255 then
      Completed s t ∧ t.mtValid = true ∧
      (t.tblM.length = 256 ∧ t.tblSh1.length = 256 ∧ t.tblSh2.length = 256) ∧
      (t.tableEntry .m 0 = 0 ∧ t.tableEntry .sh1 0 = 0 ∧ t.tableEntry .sh2 0 = 0) ∧
      (∀ d : Byte, d ≠ 0 → t.tableEntry .m d.toNat = magicM d ∧
        t.tableEntry .sh1 d.toNat = magicSh1 d ∧ t.tableEntry .sh2 d.toNat = magicSh2 d) ∧
      t.v = s.v ∧ t.k = s.k ∧ t.user = s.user ∧ BufKept s t ∧ t.dz = s.dz ∧ t.draws = s.draws
    else ErrorEntered (encode (.build lo hi)) .illegalCommand 0 s t

/-- R131 and R96: LOOKUP128 reads entry half*128 + x[6:0] of the slot after any lazy build; slots 5..7 raise
IllegalCommand. -/
def Obligations.Lookup128ReadsTheTableHalf : Prop :=
  (∀ rd ra ts h, decode (formatRT 0x02 rd ra ts (halfBit h)) = .ok (.lookup128 rd ra ts h)) ∧
  ReservedBitsRaise 0x02 0x0000FFFF ∧
  ∀ (rd ra : VReg) (tsel : BitVec 3) (half : Half) (s : State),
    ∃ t, exec (.lookup128 rd ra tsel half) s = .next t ∧
      (tsel.toNat > 4 → ErrorEntered (encode (.lookup128 rd ra tsel half)) .illegalCommand 0 s t) ∧
      ∀ slot, slotOf tsel = some slot →
        WroteV rd s t ∧ t.dz = s.dz ∧ t.draws = s.draws ∧
        (if tsel.toNat ≤ 2 then LazilyBuilt s t else MagicKept s t) ∧
        LanesAre t rd s.params.w fun i =>
          (t.tableEntry slot (halfBase half + (s.lane ra i).toNat % 128)).toNat

/-- R132 and R133: HIGHBITMASK writes bit 7 of each lane to K[kd] and nothing else. -/
def Obligations.HighbitmaskTakesBitSeven : Prop :=
  (∀ kd ra, decode (formatRK 0x03 kd ra) = .ok (.highbitmask kd ra)) ∧
  ReservedBitsRaise 0x03 0x020FFFFF ∧
  ∀ (kd : KReg) (ra : VReg) (s : State),
    ∃ t, exec (.highbitmask kd ra) s = .next t ∧ OnlyWroteK kd s t ∧
      MaskIs t kd s.params.w fun i => decide (128 ≤ (s.lane ra i).toNat)

/-- R134 and R135: BLEND takes rb's lane where the mask bit is 1 and ra's where it is 0, and depends on no lane of the
operand not selected. -/
def Obligations.BlendSelectsByMask : Prop :=
  (∀ rd ra rb kc, decode (formatRB 0x04 rd ra rb kc) = .ok (.blend rd ra rb kc)) ∧
  ReservedBitsRaise 0x04 0x00007FFF ∧
  ∀ (rd ra rb : VReg) (kc : KReg) (s : State),
    ∃ t, exec (.blend rd ra rb kc) s = .next t ∧ OnlyWroteV rd s t ∧
      (LanesAre t rd s.params.w fun i =>
        if s.maskBit kc i = true then (s.lane rb i).toNat else (s.lane ra i).toNat) ∧
      ((∀ i, i < s.params.w → (s.maskCell kc i).written = true ∧
          (s.laneCell (if s.maskBit kc i = true then rb else ra) i).written = true) →
        readsUnwritten (.blend rd ra rb kc) s = false)

/-- R137: WTL reads entry V[ra][i] of the slot after any lazy build, writing no mask register and no vector register but
rd; half = 1 or a slot of 5..7 raises IllegalCommand; of slot 4 a lane depends on the one entry it selects. -/
def Obligations.WtlReadsTheWholeTable : Prop :=
  (∀ rd ra ts, decode (formatRT 0x05 rd ra ts 0) = .ok (.wtl rd ra ts)) ∧
  ReservedBitsRaise 0x05 0x0001FFFF ∧
  ∀ (rd ra : VReg) (tsel : BitVec 3) (s : State),
    ∃ t, exec (.wtl rd ra tsel) s = .next t ∧
      (tsel.toNat > 4 → ErrorEntered (encode (.wtl rd ra tsel)) .illegalCommand 0 s t) ∧
      ∀ slot, slotOf tsel = some slot →
        WroteV rd s t ∧ t.dz = s.dz ∧ t.draws = s.draws ∧
        (if tsel.toNat ≤ 2 then LazilyBuilt s t else MagicKept s t) ∧
        (LanesAre t rd s.params.w fun i => (t.tableEntry slot (s.lane ra i).toNat).toNat) ∧
        ((∀ i, i < s.params.w → (s.laneCell ra i).written = true ∧
            (slot = .user → (s.userCell (s.lane ra i).toNat).written = true)) →
          readsUnwritten (.wtl rd ra tsel) s = false)

/-- R153: BITWIDTH gives the least k with x < 2^k, in every lane, builds nothing, and is the same as WTL of slot 3. -/
def Obligations.BitwidthGivesTheBitWidth : Prop :=
  (∀ rd ra, decode (formatR2 0x06 rd ra) = .ok (.bitwidth rd ra)) ∧
  ReservedBitsRaise 0x06 0x000FFFFF ∧
  (∀ (rd ra : VReg) (s : State),
    ∃ t, exec (.bitwidth rd ra) s = .next t ∧ OnlyWroteV rd s t ∧
      (LanesAre t rd s.params.w fun i => bitWidth (s.lane ra i)) ∧
      ∀ i, i < s.params.w →
        (s.lane ra i).toNat < 2 ^ (t.lane rd i).toNat ∧
        (∀ k : Nat, (s.lane ra i).toNat < 2 ^ k → (t.lane rd i).toNat ≤ k) ∧ (t.lane rd i).toNat ≤ 8) ∧
  ∀ (rd ra : VReg) (s : State), exec (.wtl rd ra 3) s = exec (.bitwidth rd ra) s

/-- R165 and R166: MULHI is the floor of the exact product over 256. -/
def Obligations.MulhiIsTheUpperByteOfTheProduct : Prop :=
  (∀ rd ra rb, decode (formatR3 0x07 rd ra rb) = .ok (.mulhi rd ra rb)) ∧
  ReservedBitsRaise 0x07 0x0001FFFF ∧
  ∀ (rd ra rb : VReg) (s : State),
    ∃ t, exec (.mulhi rd ra rb) s = .next t ∧ OnlyWroteV rd s t ∧
      LanesAre t rd s.params.w fun i => (s.lane ra i).toNat * (s.lane rb i).toNat / 256

/-- R187: VADD is addition modulo 256 in every lane. -/
def Obligations.VaddAddsModulo256 : Prop :=
  (∀ rd ra rb, decode (formatR3 0x08 rd ra rb) = .ok (.vadd rd ra rb)) ∧
  ReservedBitsRaise 0x08 0x0001FFFF ∧
  ∀ (rd ra rb : VReg) (s : State),
    ∃ t, exec (.vadd rd ra rb) s = .next t ∧ OnlyWroteV rd s t ∧
      LanesAre t rd s.params.w fun i => ((s.lane ra i).toNat + (s.lane rb i).toNat) % 256

/-- R188: VSUB is ra - rb modulo 256 in every lane. -/
def Obligations.VsubSubtractsModulo256 : Prop :=
  (∀ rd ra rb, decode (formatR3 0x09 rd ra rb) = .ok (.vsub rd ra rb)) ∧
  ReservedBitsRaise 0x09 0x0001FFFF ∧
  ∀ (rd ra rb : VReg) (s : State),
    ∃ t, exec (.vsub rd ra rb) s = .next t ∧ OnlyWroteV rd s t ∧
      LanesAre t rd s.params.w fun i => ((s.lane ra i).toNat + 256 - (s.lane rb i).toNat) % 256

/-- R189: VSRLV shifts ra right by rb, and gives 0 for an amount of 8 or more. -/
def Obligations.VsrlvShiftsRightPerLane : Prop :=
  (∀ rd ra rb, decode (formatR3 0x0A rd ra rb) = .ok (.vsrlv rd ra rb)) ∧
  ReservedBitsRaise 0x0A 0x0001FFFF ∧
  ∀ (rd ra rb : VReg) (s : State),
    ∃ t, exec (.vsrlv rd ra rb) s = .next t ∧ OnlyWroteV rd s t ∧
      LanesAre t rd s.params.w fun i =>
        if (s.lane rb i).toNat < 8 then (s.lane ra i).toNat / 2 ^ (s.lane rb i).toNat else 0

/-- R169 with R167, R168, R171 and R172: QUOTIENT under both policies. Each lane is R168's formula on the triple
gathered from slots 0, 1 and 2 as the lazy build leaves them. -/
def Obligations.QuotientComputesOrRejects : Prop :=
  (∀ rd ra rb, decode (formatR3 0x0B rd ra rb) = .ok (.quotient rd ra rb)) ∧
  ReservedBitsRaise 0x0B 0x0001FFFF ∧
  ∀ (rd ra rb : VReg) (s : State),
    ∃ t, exec (.quotient rd ra rb) s = .next t ∧
      (∀ i, s.params.policy = .strict → i < s.params.w → s.lane rb i = 0 →
        (∀ j, j < i → s.lane rb j ≠ 0) →
        ErrorEntered (encode (.quotient rd ra rb)) .divisionByZero (BitVec.ofNat 32 i) s t) ∧
      ((s.params.policy = .lenient ∨ ∀ i, i < s.params.w → s.lane rb i ≠ 0) →
        WroteV rd s t ∧ LazilyBuilt s t ∧ t.draws = s.draws ∧
        (t.dz = true ↔ s.dz = true ∨ ∃ i, i < s.params.w ∧ s.lane rb i = 0) ∧
        LanesAre t rd s.params.w fun i =>
          let n := (s.lane ra i).toNat
          let d := (s.lane rb i).toNat
          let t1 := (t.tableEntry .m d).toNat * n / 256
          let u := (n + 256 - t1) % 256
          (t1 + u / 2 ^ (t.tableEntry .sh1 d).toNat) % 256 / 2 ^ (t.tableEntry .sh2 d).toNat)

/-- R186: VSPLAT writes the immediate to every lane, and every lane is then written. -/
def Obligations.VsplatBroadcasts : Prop :=
  (∀ rd imm, decode (formatI 0x0C rd imm) = .ok (.vsplat rd imm)) ∧
  ReservedBitsRaise 0x0C 0x007FFF00 ∧
  ∀ (rd : VReg) (imm8 : BitVec 8) (s : State),
    ∃ t, exec (.vsplat rd imm8) s = .next t ∧ OnlyWroteV rd s t ∧
      LanesAre t rd s.params.w fun _ => imm8.toNat

/-- R190: VLD takes lane i from BUF[addr + i], an unwritten byte leaving the lane unwritten, or raises BufferRange when
the W bytes do not fit. (The unwritten lane is the reading of log 6.) -/
def Obligations.VldLoadsLanesOrRaisesBufferRange : Prop :=
  (∀ rd a, decode (formatM 0x0D rd a) = .ok (.vld rd a)) ∧
  ReservedBitsRaise 0x0D 0x007F0000 ∧
  ∀ (rd : VReg) (addr : BitVec 16) (s : State),
    ∃ t, exec (.vld rd addr) s = .next t ∧
      if addr.toNat + s.params.w > s.params.bufSize then
        ErrorEntered (encode (.vld rd addr)) .bufferRange (addr.setWidth 32) s t
      else
        WroteV rd s t ∧ MagicKept s t ∧ t.dz = s.dz ∧ (t.v[rd]).length = s.params.w ∧
        ∀ i, i < s.params.w → MovedFrom s (addr.toNat + i) (t.laneCell rd i)

/-- R191: VST puts lane i at BUF[addr + i] and changes no other byte, or raises BufferRange with BUF unchanged. -/
def Obligations.VstStoresLanesOrRaisesBufferRange : Prop :=
  (∀ rs a, decode (formatM 0x0E rs a) = .ok (.vst rs a)) ∧
  ReservedBitsRaise 0x0E 0x007F0000 ∧
  ∀ (rs : VReg) (addr : BitVec 16) (s : State),
    ∃ t, exec (.vst rs addr) s = .next t ∧
      if addr.toNat + s.params.w > s.params.bufSize then
        ErrorEntered (encode (.vst rs addr)) .bufferRange (addr.setWidth 32) s t
      else
        Completed s t ∧ t.v = s.v ∧ t.k = s.k ∧ t.user = s.user ∧ MagicKept s t ∧ t.dz = s.dz ∧
        t.draws = s.draws ∧
        (∀ i, i < s.params.w → t.buf.read (addr.toNat + i) = some (s.lane rs i)) ∧
        ∀ a : Nat, ¬(addr.toNat ≤ a ∧ a < addr.toNat + s.params.w) → t.buf.read a = s.buf.read a

/-- R192: TLD takes entry j of slot 4 from BUF[addr + j], an unwritten byte making an unwritten entry, or raises
BufferRange when the 256 bytes do not fit. -/
def Obligations.TldLoadsTheUserTableOrRaisesBufferRange : Prop :=
  (∀ a, decode (formatM 0x0F 0 a) = .ok (.tld a)) ∧
  ReservedBitsRaise 0x0F 0x03FF0000 ∧
  ∀ (addr : BitVec 16) (s : State),
    ∃ t, exec (.tld addr) s = .next t ∧
      if addr.toNat + 256 > s.params.bufSize then
        ErrorEntered (encode (.tld addr)) .bufferRange (addr.setWidth 32) s t
      else
        Completed s t ∧ t.v = s.v ∧ t.k = s.k ∧ MagicKept s t ∧ t.dz = s.dz ∧ BufKept s t ∧
        t.user.length = 256 ∧
        ∀ j, j < 256 → MovedFrom s (addr.toNat + j) (t.userCell j)

/-! ### Tables, bit width, magic constants -/

/-- R23 and R24: the five slots, and which field of the state each is; slots 5, 6 and 7 do not exist. -/
def Obligations.SlotNumbersNameTheTables : Prop :=
  slotOf 0 = some .m ∧ slotOf 1 = some .sh1 ∧ slotOf 2 = some .sh2 ∧ slotOf 3 = some .bitWidth ∧
  slotOf 4 = some .user ∧ slotOf 5 = none ∧ slotOf 6 = none ∧ slotOf 7 = none ∧
  ∀ (s : State) (x : Byte),
    s.tableEntry .m x.toNat = s.tblM.getD x.toNat 0 ∧
    s.tableEntry .sh1 x.toNat = s.tblSh1.getD x.toNat 0 ∧
    s.tableEntry .sh2 x.toNat = s.tblSh2.getD x.toNat 0 ∧
    s.tableEntry .bitWidth x.toNat = bitWidthRom x ∧
    s.tableEntry .user x.toNat = (s.userCell x.toNat).val

/-- R136's guarantee: the two-lookup algorithm reads T[x] for every index and every table. -/
def Obligations.WideLookupReadsTheIndexedEntry : Prop :=
  ∀ (table : Nat → Byte) (x : Byte),
    wideLookup table x =
        blendLane (highBitMask x) (lookup128 (tableHalf table .lo) x) (lookup128 (tableHalf table .hi) x) ∧
      wideLookup table x = table x.toNat

/-- R150: bit_width is the position of the highest set bit plus one, 0 for 0; equivalently the least k in [0,8] with
x < 2^k. -/
def Obligations.BitWidthIsTheLeastPowerExponent : Prop :=
  bitWidth 0 = 0 ∧
  ∀ x : Byte,
    (x ≠ 0 → x.getLsbD (bitWidth x - 1) = true ∧ ∀ j : Nat, bitWidth x ≤ j → x.getLsbD j = false) ∧
    bitWidth x ≤ 8 ∧ x.toNat < 2 ^ bitWidth x ∧ ∀ k : Nat, x.toNat < 2 ^ k → bitWidth x ≤ k

/-- R151 and R152: slot 3 holds bit_width in every state, and its entries start at 0, end at 8 and never decrease. -/
def Obligations.BitWidthTableIsMonotoneRom : Prop :=
  ∀ s : State,
    (∀ x : Byte, (s.tableEntry .bitWidth x.toNat).toNat = bitWidth x) ∧
    s.tableEntry .bitWidth 0 = 0 ∧ s.tableEntry .bitWidth 255 = 8 ∧
    ∀ x y : Byte, x ≤ y → s.tableEntry .bitWidth x.toNat ≤ s.tableEntry .bitWidth y.toNat

/-- R154: the fast path (a low-half lookup of the BitWidthTable, blended with 8 where bit 7 is set) agrees with the
generic path for all 256 inputs, and `bitwidth.fast` of R101 leaves the same V[vd] as BITWIDTH. -/
def Obligations.BitWidthFastPathAgrees : Prop :=
  (∀ (s : State) (x : Byte),
    blendLane (highBitMask x) (lookup128 (tableHalf (s.tableEntry .bitWidth) .lo) x) 8 =
      wideLookup (s.tableEntry .bitWidth) x) ∧
  ∀ (vd va vt : VReg) (kt : KReg) (s : State), vd ≠ va → vd ≠ vt → va ≠ vt →
    ∃ t u, execAll [.lookup128 vd va 3 .lo, .highbitmask kt va, .vsplat vt 8, .blend vd vd vt kt] s = .next t ∧
      exec (.bitwidth vd va) s = .next u ∧ t.v[vd] = u.v[vd]

/-- R111 to R114 in exact arithmetic: l is the least with 2^l >= d, m the ceiling of 256 (2^l - d) / d with no
overflow of 16 bits, sh1 = min(l, 1), sh2 = l - sh1. -/
def Obligations.MagicConstantFormulas : Prop :=
  (∀ d : Byte, d ≠ 0 →
    magicL d = bitWidth (d - 1) ∧ magicL d ≤ 8 ∧
    d.toNat ≤ 2 ^ magicL d ∧ (∀ l : Nat, d.toNat ≤ 2 ^ l → magicL d ≤ l) ∧
    (magicM d).toNat = ((2 ^ magicL d - d.toNat) * 256 + (d.toNat - 1)) / d.toNat ∧
    (2 ^ magicL d - d.toNat) * 256 + (d.toNat - 1) ≤ 32640 ∧ (magicM d).toNat ≤ 253 ∧
    (magicSh1 d).toNat = min (magicL d) 1 ∧ (d ≠ 1 → magicSh1 d = 1) ∧
    (magicSh2 d).toNat = magicL d - (magicSh1 d).toNat ∧
    (magicSh2 d).toNat ≤ 7 ∧ ((magicSh2 d).toNat = 7 ↔ 129 ≤ d.toNat)) ∧
  (2 ^ magicL 129 - 129) * 256 + (129 - 1) = 32640 ∧ magicL 1 = 0 ∧ (magicSh1 1).toNat = 0

/-- R122: the properties of the published table. -/
def Obligations.PublishedTableProperties : Prop :=
  (∀ d : Byte, d ≠ 0 →
    (magicM d).toNat ≤ 253 ∧
    ((magicM d).toNat = 0 ↔ ∃ k : Nat, d.toNat = 2 ^ k) ∧
    ((magicM d).toNat = 253 ↔ d = 129) ∧
    ((magicSh1 d).toNat = 0 ∨ (magicSh1 d).toNat = 1) ∧
    (magicSh2 d).toNat ≤ 7 ∧ magicL d = (magicSh1 d).toNat + (magicSh2 d).toNat) ∧
  ∀ (n d : Byte), d ≠ 0 → (quotientFinish n (magicM d) (magicSh1 d) (magicSh2 d)).toNat = n.toNat / d.toNat

/-- R115: the degenerate divisor 1, and the powers of two. -/
def Obligations.PowerOfTwoDivisorsShift : Prop :=
  (magicL 1 = 0 ∧ magicM 1 = 0 ∧ magicSh1 1 = 0 ∧ magicSh2 1 = 0) ∧
  (∀ n : Byte, quotientFinish n (magicM 1) (magicSh1 1) (magicSh2 1) = n) ∧
  ∀ (k : Nat) (n : Byte), k ≤ 7 →
    magicM (BitVec.ofNat 8 (2 ^ k)) = 0 ∧ (magicSh1 (BitVec.ofNat 8 (2 ^ k))).toNat = min k 1 ∧
    (magicSh1 (BitVec.ofNat 8 (2 ^ k))).toNat + (magicSh2 (BitVec.ofNat 8 (2 ^ k))).toNat = k ∧
    quotientFinish n (magicM (BitVec.ofNat 8 (2 ^ k))) (magicSh1 (BitVec.ofNat 8 (2 ^ k)))
      (magicSh2 (BitVec.ofNat 8 (2 ^ k))) = n >>> k

/-- R138: after WTL of slots 0, 1 and 2 with the published table, each lane holds its divisor's m, sh1 and sh2, and 0
for a zero lane. -/
def Obligations.WtlGathersTheMagicTriple : Prop :=
  ∀ (rd ra : VReg) (s : State), (s.mtValid = true → MagicPublished s) →
    ∃ t0 t1 t2, exec (.wtl rd ra 0) s = .next t0 ∧ exec (.wtl rd ra 1) s = .next t1 ∧
      exec (.wtl rd ra 2) s = .next t2 ∧
      ∀ i, i < s.params.w →
        t0.lane rd i = (if s.lane ra i = 0 then 0 else magicM (s.lane ra i)) ∧
        t1.lane rd i = (if s.lane ra i = 0 then 0 else magicSh1 (s.lane ra i)) ∧
        t2.lane rd i = (if s.lane ra i = 0 then 0 else magicSh2 (s.lane ra i))

/-! ### The quotient engine -/

/-- R170 and R171: with the MagicTable published or still to be built, a QUOTIENT that is not rejected gives
floor(n / d) in every lane with a nonzero divisor and n in every lane with a zero divisor, and a zero divisor sets DZ.
All 65,280 pairs. -/
def Obligations.QuotientIsFloorDivision : Prop :=
  ∀ (rd ra rb : VReg) (s : State),
    (s.mtValid = true → MagicPublished s) →
    (s.params.policy = .lenient ∨ ∀ i, i < s.params.w → s.lane rb i ≠ 0) →
    ∃ t, exec (.quotient rd ra rb) s = .next t ∧ Completed s t ∧
      ((∃ i, i < s.params.w ∧ s.lane rb i = 0) → t.dz = true) ∧
      ∀ i, i < s.params.w →
        (s.lane rb i ≠ 0 → (t.lane rd i).toNat = (s.lane ra i).toNat / (s.lane rb i).toNat) ∧
        (s.lane rb i = 0 → t.lane rd i = s.lane ra i)

/-- R173: for every triple a lane can gather from the published table, entry 0 too, nothing wraps: t1 <= n,
t1 + ((n - t1) >> sh1) <= n, sh1 <= 1 and sh2 <= 7. -/
def Obligations.QuotientStepsDoNotWrap : Prop :=
  ∀ (s : State) (n d : Byte), MagicPublished s →
    let m := wideLookup (s.tableEntry .m) d
    let sh1 := wideLookup (s.tableEntry .sh1) d
    let sh2 := wideLookup (s.tableEntry .sh2) d
    sh1.toNat ≤ 1 ∧ sh2.toNat ≤ 7 ∧ m.toNat ≤ 253 ∧ (mulhi8 m n).toNat ≤ n.toNat ∧
    (mulhi8 m n).toNat + (n.toNat - (mulhi8 m n).toNat) / 2 ^ sh1.toNat ≤ n.toNat ∧
    (s.quotientLane n d).toNat =
      ((mulhi8 m n).toNat + (n.toNat - (mulhi8 m n).toNat) / 2 ^ sh1.toNat) / 2 ^ sh2.toNat

/-- R175: the `quot.prim` expansion of R101, under its distinctness conditions, never raises an error and never sets
DZ, writes vd, vm, v1 and v2 only, and leaves in vd what QUOTIENT leaves there; a lane with divisor 0 gives n. -/
def Obligations.QuotPrimExpansionAgreesWithQuotient : Prop :=
  ∀ (vd vn vdiv vm v1 v2 : VReg) (s : State),
    vd ≠ vm → vd ≠ v1 → vd ≠ v2 → vm ≠ v1 → vm ≠ v2 → v1 ≠ v2 →
    vm ≠ vn → v1 ≠ vn → v2 ≠ vn → vm ≠ vdiv → v1 ≠ vdiv → v2 ≠ vdiv →
    ∃ t, execAll [.wtl vm vdiv 0, .wtl v1 vdiv 1, .wtl v2 vdiv 2, .mulhi vm vm vn, .vsub vd vn vm,
        .vsrlv vd vd v1, .vadd vd vm vd, .vsrlv vd vd v2] s = .next t ∧
      t.halted = s.halted ∧ t.errCode = s.errCode ∧ t.dz = s.dz ∧ t.cmdcnt = s.cmdcnt + 8 ∧
      (∀ r : VReg, r ≠ vd → r ≠ vm → r ≠ v1 → r ≠ v2 → t.v[r] = s.v[r]) ∧
      (∀ u, s.halted = false → exec (.quotient vd vn vdiv) s = .next u → Completed s u → t.v[vd] = u.v[vd]) ∧
      ((s.mtValid = true → MagicPublished s) →
        ∀ i, i < s.params.w → s.lane vdiv i = 0 → t.lane vd i = s.lane vn i)

/-- R101 and R136: the `wtl.prim` expansion, with vt, vd and va distinct, leaves in vd what WTL leaves there. -/
def Obligations.WtlPrimExpansionAgreesWithWtl : Prop :=
  ∀ (vd va vt : VReg) (kt : KReg) (tsel : BitVec 3) (s : State),
    slotLegal tsel = true → vt ≠ vd → vt ≠ va → vd ≠ va →
    ∃ t u, execAll [.lookup128 vt va tsel .lo, .lookup128 vd va tsel .hi, .highbitmask kt va,
        .blend vd vt vd kt] s = .next t ∧
      exec (.wtl vd va tsel) s = .next u ∧ t.v[vd] = u.v[vd] ∧ t.cmdcnt = s.cmdcnt + 4

/-- R176: two QUOTIENT commands with identical lane inputs give identical lane outputs, whatever the two states hold
elsewhere. -/
def Obligations.QuotientIsPure : Prop :=
  ∀ (rd ra rb rd' ra' rb' : VReg) (s t s' t' : State),
    (s.mtValid = true → MagicPublished s) → (t.mtValid = true → MagicPublished t) →
    s.params = t.params →
    (∀ i, i < s.params.w → s.lane ra i = t.lane ra' i ∧ s.lane rb i = t.lane rb' i) →
    exec (.quotient rd ra rb) s = .next s' → exec (.quotient rd' ra' rb') t = .next t' →
    s.halted = false → t.halted = false → s'.halted = false →
    Completed s s' ∧ Completed t t' ∧ ∀ i, i < s.params.w → s'.lane rd i = t'.lane rd' i

/-! ### Whole-machine rules over all commands -/

/-- R221 and R217: every command answers a next state, and either completed or entered exactly one error, precisely,
with its own word in ERRCMD. -/
def Obligations.EveryCommandCompletesOrEntersOneError : Prop :=
  ∀ (i : Instr) (s : State), ∃ t, exec i s = .next t ∧
    (Completed s t ∨ ∃ e x, e ≠ ErrCode.noError ∧ ErrorEntered (encode i) e x s t)

/-- R215: which command raises which error, the code STATUS then shows, and what ERRINFO records. -/
def Obligations.ErrorCodesAndTheirCommands : Prop :=
  ∀ (i : Instr) (s t : State) (e : ErrCode) (x : Word),
    s.halted = false → exec i s = .next t → ErrorEntered (encode i) e x s t → e ≠ .noError →
    (t.statusWord.extractLsb' 4 4).toNat ≤ 4 ∧
    (e = .invalidDivisor → t.statusWord.extractLsb' 4 4 = 1 ∧
      ∃ lo hi, i = .build lo hi ∧ lo.toNat ≤ x.toNat ∧ x.toNat ≤ hi.toNat ∧
        ¬(1 ≤ x.toNat ∧ x.toNat ≤ 255) ∧
        ∀ d : Nat, lo.toNat ≤ d → d < x.toNat → 1 ≤ d ∧ d ≤ 255) ∧
    (e = .divisionByZero → t.statusWord.extractLsb' 4 4 = 2 ∧ s.params.policy = .strict ∧
      ∃ rd ra rb, i = .quotient rd ra rb ∧ x.toNat < s.params.w ∧ s.lane rb x.toNat = 0 ∧
        ∀ j, j < x.toNat → s.lane rb j ≠ 0) ∧
    (e = .illegalCommand → t.statusWord.extractLsb' 4 4 = 3 ∧ x = 0) ∧
    (e = .bufferRange → t.statusWord.extractLsb' 4 4 = 4 ∧
      ((∃ rd a, i = .vld rd a ∧ x.toNat = a.toNat ∧ a.toNat + s.params.w > s.params.bufSize) ∨
       (∃ rs a, i = .vst rs a ∧ x.toNat = a.toNat ∧ a.toNat + s.params.w > s.params.bufSize) ∨
       (∃ a, i = .tld a ∧ x.toNat = a.toNat ∧ a.toNat + 256 > s.params.bufSize)))

/-- R43: which command writes which state, and that every consumed command adds one to CMDCNT. -/
def Obligations.CommandsWriteOnlyTheirListedState : Prop :=
  ∀ (i : Instr) (s t : State), exec i s = .next t →
    HostKept s t ∧ t.cmdcnt = s.cmdcnt + 1 ∧
    (∀ r : VReg, writesV i ≠ some r → t.v[r] = s.v[r]) ∧
    (∀ c : KReg, writesK i ≠ some c → t.k[c] = s.k[c]) ∧
    (∀ x : Nat, ¬storesTo i s x → t.buf.read x = s.buf.read x) ∧
    ((∀ a, i ≠ .tld a) → t.user = s.user) ∧
    (needsMagic i = false → (∀ lo hi, i ≠ .build lo hi) → MagicKept s t) ∧
    ((∀ rd ra rb, i ≠ .quotient rd ra rb) → t.dz = s.dz) ∧
    ((∃ e x, e ≠ ErrCode.noError ∧ ErrorEntered (encode i) e x s t) ∨
      (t.halted = s.halted ∧ t.errCode = s.errCode ∧ t.erridx = s.erridx ∧ t.errcmd = s.errcmd ∧
        t.errinfo = s.errinfo))

/-- R119: the lazy build runs, as part of the command, exactly for a command that needs the MagicTable, raises no error
and finds MT_VALID = 0; CMDCNT counts once. On a block that is not halted a command raised an error exactly if it leaves
the block halted, and then slots 0 to 2 and MT_VALID are as before. -/
def Obligations.LazyBuildRunsExactlyWhenNeeded : Prop :=
  ∀ (i : Instr) (s : State), ∃ t, exec i s = .next t ∧ t.cmdcnt = s.cmdcnt + 1 ∧
    (needsMagic i = true → s.halted = false → t.halted = false → LazilyBuilt s t) ∧
    (needsMagic i = false → (∀ lo hi, i ≠ .build lo hi) → MagicKept s t) ∧
    (s.halted = false → t.halted = true → MagicKept s t)

/-- R139 and R174: no lane's value affects another lane. Two states that agree on lane `j` of every register and on the
tables and BUF still agree on lane `j` of every register after the same completed command. -/
def Obligations.LanesAreIndependent : Prop :=
  ∀ (i : Instr) (s t s' t' : State) (j : Nat),
    s.params = t.params → j < s.params.w → s.mtValid = t.mtValid →
    s.tblM = t.tblM → s.tblSh1 = t.tblSh1 → s.tblSh2 = t.tblSh2 → s.user = t.user → s.buf = t.buf →
    s.draws = t.draws →
    (∀ r : VReg, s.laneCell r j = t.laneCell r j) → (∀ c : KReg, s.maskCell c j = t.maskCell c j) →
    s.halted = false → t.halted = false →
    exec i s = .next s' → exec i t = .next t' → Completed s s' → Completed t t' →
    (∀ r : VReg, s'.laneCell r j = t'.laneCell r j) ∧ ∀ c : KReg, s'.maskCell c j = t'.maskCell c j

/-- R120: a BUILD accepted while the published table stands changes nothing but CMDCNT. -/
def Obligations.RebuildChangesNoEntry : Prop :=
  ∀ s : State, s.mtValid = true → MagicPublished s →
    exec (.build 1 255) s = .next { s with cmdcnt := s.cmdcnt + 1 }

/-- The consequences R68 lists: VST then VLD, TLD then WTL on slot 4, a BufWrite then a VLD, a VST then a BufRead. -/
def Obligations.LaterAccessesSeeEarlierWrites : Prop :=
  (∀ (rs rd : VReg) (addr : BitVec 16) (s : State), s.fits addr s.params.w = true →
    ∃ t u, exec (.vst rs addr) s = .next t ∧ exec (.vld rd addr) t = .next u ∧
      LanesAre u rd s.params.w fun i => (s.lane rs i).toNat) ∧
  (∀ (rd ra : VReg) (addr : BitVec 16) (s : State), s.fits addr 256 = true →
    ∃ t u, exec (.tld addr) s = .next t ∧ exec (.wtl rd ra 4) t = .next u ∧
      ∀ i b, i < s.params.w → s.buf.read (addr.toNat + (s.lane ra i).toNat) = some b → u.lane rd i = b) ∧
  (∀ (rd : VReg) (addr a : BitVec 16) (b : Byte) (s : State), s.fits addr s.params.w = true →
    addr.toNat ≤ a.toNat → a.toNat < addr.toNat + s.params.w →
    ∃ t u, hostBufWrite a b s = .next t ∧ exec (.vld rd addr) t = .next u ∧
      u.laneCell rd (a.toNat - addr.toNat) = { val := b, written := true }) ∧
  (∀ (rs : VReg) (addr a : BitVec 16) (s : State), s.fits addr s.params.w = true →
    addr.toNat ≤ a.toNat → a.toNat < addr.toNat + s.params.w →
    ∃ t u, exec (.vst rs addr) s = .next t ∧ hostBufRead a t = .next u ∧
      u.reply = some (.byte (s.lane rs (a.toNat - addr.toNat))))

/-! ### The host's side -/

/-- A step carries out the host's next transaction, taken off the host's list (R248; the list is log 7's): each of the
five kinds with its effect, and a word written to CMD of a block that is not halted, if it decodes, as `exec` of its
command (R39). -/
def Obligations.StepRunsTheDecodedCommand : Prop :=
  ∀ (s : State) (x : HostTxn) (rest : List HostTxn), s.pending = x :: rest →
    let s' := { s with pending := rest }
    step s = transact x s' ∧
    (∀ off, x = .regRead off → step s = .next { s' with reply := some (.word (s.regValue off)) }) ∧
    (∀ w i, x = .regWrite 0x18 w → s.halted = false → decode w = .ok i → step s = exec i s') ∧
    (∀ w, x = .regWrite 0x18 w → step s = issue w s') ∧
    (∀ v, x = .regWrite 0x04 v → step s = .next (s'.writeStatus v)) ∧
    (∀ off v, x = .regWrite off v → off ≠ 0x04 → off ≠ 0x18 → step s = .next s') ∧
    (∀ a, x = .bufRead a → a.toNat < s.params.bufSize →
      ∃ b, step s = .next { s' with reply := some (.byte b), draws := s.draws + 1 } ∧
        ∀ c, s.buf.read a.toNat = some c → b = c) ∧
    (∀ a, x = .bufRead a → s.params.bufSize ≤ a.toNat → step s = .next { s' with reply := some (.byte 0) }) ∧
    (∀ a b, x = .bufWrite a b → a.toNat < s.params.bufSize →
      step s = .next { s' with buf := s.buf.write a.toNat b }) ∧
    (∀ a b, x = .bufWrite a b → s.params.bufSize ≤ a.toNat → step s = .next s') ∧
    (x = .reset → step s = .next s'.resetBlock)

/-- R218: while HALTED = 1 a command written to CMD has no effect at all, and register reads, STATUS writes and buffer
transactions still work. -/
def Obligations.HaltedBlockDiscardsCommands : Prop :=
  ∀ s : State, s.halted = true →
    (∀ (w : Word) (rest : List HostTxn), s.pending = .regWrite 0x18 w :: rest →
      step s = .next { s with pending := rest }) ∧
    (∀ off : Nat, transact (.regRead off) s = .next { s with reply := some (.word (s.regValue off)) }) ∧
    (∀ x : Word, ∃ t, transact (.regWrite 0x04 x) s = .next t ∧ t.halted = !x.getLsbD 1 ∧
      t.dz = (s.dz && !x.getLsbD 2)) ∧
    (∀ (a : BitVec 16) (b : Byte), a.toNat < s.params.bufSize →
      ∃ t, transact (.bufWrite a b) s = .next t ∧ t.buf.read a.toNat = some b) ∧
    ∀ (a : BitVec 16) (b : Byte), a.toNat < s.params.bufSize → s.buf.read a.toNat = some b →
      ∃ t, transact (.bufRead a) s = .next t ∧ t.reply = some (.byte b)

/-- R34: STATUS's fields as read, its write-1-to-clear, and that every other bit of a write is ignored. -/
def Obligations.StatusReadsAndClears : Prop :=
  (∀ s : State,
    s.statusWord.getLsbD 0 = s.mtValid ∧ s.statusWord.getLsbD 1 = s.halted ∧ s.statusWord.getLsbD 2 = s.dz ∧
    s.statusWord.getLsbD 3 = false ∧ s.statusWord.extractLsb' 4 4 = s.errCode.bits ∧
    s.statusWord.extractLsb' 8 24 = 0) ∧
  (∀ p : Params, (State.resetWith p).statusWord = 0) ∧
  (∀ (s : State) (x : Word), hostRegWrite 0x04 x s = .next { s with
      halted := if x.getLsbD 1 = true then false else s.halted
      errCode := if x.getLsbD 1 = true ∧ s.halted = true then .noError else s.errCode
      dz := if x.getLsbD 2 = true then false else s.dz })

/-- R219: writing STATUS with bit 1 resumes a halted block: HALTED and ERRCODE become 0, the error registers stay, and
the next command written to CMD executes; the faulting one is not retried. -/
def Obligations.ErrorReturnResumesTheBlock : Prop :=
  ∀ (s : State) (x w : Word) (i : Instr) (rest : List HostTxn),
    s.halted = true → x.getLsbD 1 = true → decode w = .ok i →
    s.pending = .regWrite 0x04 x :: .regWrite 0x18 w :: rest →
    let resumed := { s with
      halted := false
      errCode := .noError
      dz := if x.getLsbD 2 = true then false else s.dz }
    step s = .next { resumed with pending := .regWrite 0x18 w :: rest } ∧
    step { resumed with pending := .regWrite 0x18 w :: rest } = exec i { resumed with pending := rest }

/-- R32: what each offset reads, after reset too, that a read has no side effect, that a write to CMD issues a command,
and that every write but STATUS's and CMD's is ignored; offsets that are no multiple of 4 or lie at 0x1C or above read
0. -/
def Obligations.RegisterMapReadsAndIgnoredWrites : Prop :=
  (∀ (p : Params) (off : Nat), off ≠ 0x00 → (State.resetWith p).regValue off = 0) ∧
  ∀ s : State,
    s.regValue 0x00 = idWord s.params ∧ s.regValue 0x04 = s.statusWord ∧ s.regValue 0x08 = s.cmdcnt ∧
    s.regValue 0x0C = s.erridx ∧ s.regValue 0x10 = s.errcmd ∧ s.regValue 0x14 = s.errinfo ∧
    s.regValue 0x18 = 0 ∧
    (∀ off : Nat, 0x1C ≤ off ∨ off % 4 ≠ 0 → s.regValue off = 0) ∧
    (∀ off : Nat, hostRegRead off s = .next { s with reply := some (.word (s.regValue off)) }) ∧
    (∀ x : Word, hostRegWrite 0x04 x s = .next (s.writeStatus x) ∧ hostRegWrite 0x18 x s = issue x s) ∧
    ∀ (off : Nat) (x : Word), off ≠ 0x04 → off ≠ 0x18 → hostRegWrite off x s = .next s

/-- R33: the fields of ID, for every legal construction. -/
def Obligations.IdFieldsReportTheParameters : Prop :=
  ∀ p : Params, p.legal = true →
    (idWord p).extractLsb' 0 8 = 1 ∧
    2 ^ ((idWord p).extractLsb' 8 4).toNat = p.w ∧
    ((idWord p).getLsbD 12 = true ↔ p.policy = .lenient) ∧
    (idWord p).extractLsb' 13 3 = 0 ∧
    ((idWord p).extractLsb' 16 16).toNat = p.bufSize - 1

/-- The buffer port of R248 and R66: a read or write below BUF_SIZE reaches BUF[a] alone; at or above, a read returns 0
and a write is ignored. -/
def Obligations.BufferPortReachesOneByte : Prop :=
  ∀ (s : State) (a : BitVec 16) (b : Byte),
    (a.toNat < s.params.bufSize →
      (∃ t, hostBufWrite a b s = .next t ∧ t = { s with buf := t.buf } ∧ t.buf.read a.toNat = some b ∧
        ∀ y : Nat, y ≠ a.toNat → t.buf.read y = s.buf.read y) ∧
      (s.buf.read a.toNat = some b →
        hostBufRead a s = .next { s with reply := some (.byte b), draws := s.draws + 1 })) ∧
    (s.params.bufSize ≤ a.toNat →
      hostBufWrite a b s = .next s ∧ hostBufRead a s = .next { s with reply := some (.byte 0) })

/-- R30: CMDCNT is 0 after reset, a consumed command adds one modulo 2^32 (an erroneous one too), a discarded one
nothing, and the host reads it at 0x08 and cannot write it. -/
def Obligations.CmdcntCountsConsumedCommands : Prop :=
  (∀ p : Params, (State.resetWith p).cmdcnt = 0) ∧
  (∀ (s : State) (w : Word), ∃ t, issue w s = .next t ∧
    t.cmdcnt.toNat = if s.halted = true then s.cmdcnt.toNat else (s.cmdcnt.toNat + 1) % 2 ^ 32) ∧
  ∀ (s : State) (x : Word), s.regValue 0x08 = s.cmdcnt ∧
    ∃ t, hostRegWrite 0x08 x s = .next t ∧ t.cmdcnt = s.cmdcnt

/-- R222: DZ is sticky. A step turns it on exactly at a QUOTIENT of a LENIENT block that is not halted and sees a zero
lane, which is no error; and off only at a host write of STATUS with bit 2 = 1, or at Reset. -/
def Obligations.DzIsSetByLenientQuotientAndClearedByTheHost : Prop :=
  ∀ s t : State, step s = .next t →
    (s.dz = false → t.dz = true →
      ∃ w rest rd ra rb, s.pending = .regWrite 0x18 w :: rest ∧ s.halted = false ∧
        decode w = .ok (.quotient rd ra rb) ∧ s.params.policy = .lenient ∧
        (∃ i, i < s.params.w ∧ s.lane rb i = 0) ∧
        t.halted = false ∧ t.errCode = s.errCode ∧ t.erridx = s.erridx ∧ t.errcmd = s.errcmd ∧
        t.errinfo = s.errinfo) ∧
    (s.dz = true → t.dz = false →
      (∃ x rest, s.pending = .regWrite 0x04 x :: rest ∧ x.getLsbD 2 = true) ∨
      ∃ rest, s.pending = .reset :: rest) ∧
    (∀ x rest, s.pending = .regWrite 0x04 x :: rest → x.getLsbD 2 = true → t.dz = false) ∧
    ∀ w rest rd ra rb i, s.pending = .regWrite 0x18 w :: rest → s.halted = false →
      decode w = .ok (.quotient rd ra rb) → s.params.policy = .lenient → i < s.params.w → s.lane rb i = 0 →
      t.dz = true ∧ t.halted = false ∧ t.errCode = s.errCode ∧ t.erridx = s.erridx ∧ t.errcmd = s.errcmd ∧
      t.errinfo = s.errinfo

/-- R42, R240 and R241: what the Reset transaction leaves of the block, whatever state it finds. A cell that R42 calls
unwritten is unwritten; no claim is made of the value it holds. -/
def Obligations.ResetLeavesTheStatedState : Prop :=
  ∀ (s t : State) (rest : List HostTxn), s.pending = .reset :: rest → step s = .next t →
    t.params = s.params ∧
    (∀ (r : VReg) (i : Nat), (t.laneCell r i).written = false) ∧
    (∀ (c : KReg) (i : Nat), (t.maskCell c i).written = false) ∧
    (∀ j : Nat, (t.userCell j).written = false) ∧
    (∀ a : Nat, t.buf.read a = none) ∧
    (∀ x : Byte, (t.tableEntry .bitWidth x.toNat).toNat = bitWidth x) ∧
    t.mtValid = false ∧ t.statusWord = 0 ∧ t.halted = false ∧ t.dz = false ∧ t.errCode = .noError ∧
    t.cmdcnt = 0 ∧ t.erridx = 0 ∧ t.errcmd = 0 ∧ t.errinfo = 0 ∧ t.regValue 0x00 = idWord t.params

/-- The model's own rule for an empty host list (R230: between commands the block is idle and holds all state), and
that no step ever stops: every state has a next one. -/
def Obligations.StepAlwaysAnswersANextState : Prop :=
  (∀ s : State, s.pending = [] → step s = .next s) ∧
  ∀ s : State, ∃ t, step s = .next t ∧ t.params = s.params ∧
    (s.pending ≠ [] → t.pending = s.pending.tail)

/-- R35, R36 and R220: the error registers are 0 after reset and change only at a Reset or at an error of a command
written to a block that is not halted, each of which puts its index in ERRIDX and its whole word in ERRCMD; clearing
HALTED does not clear them. -/
def Obligations.ErrorRegistersKeepTheLastError : Prop :=
  (∀ p : Params, (State.resetWith p).erridx = 0 ∧ (State.resetWith p).errcmd = 0) ∧
  (∀ (w : Word) (s t : State), s.halted = false → issue w s = .next t → t.halted = true →
    t.erridx = s.cmdcnt ∧ t.errcmd = w) ∧
  ∀ s t : State, step s = .next t →
    (t.erridx = s.erridx ∧ t.errcmd = s.errcmd ∧ t.errinfo = s.errinfo) ∨
    (∃ rest, s.pending = .reset :: rest) ∨
    ∃ w rest e x, s.pending = .regWrite 0x18 w :: rest ∧ s.halted = false ∧ e ≠ ErrCode.noError ∧
      ErrorEntered w e x { s with pending := rest } t

/-! ### Invariants and isolation -/

/-- The invariant holds right after reset, for every legal construction. -/
def Obligations.InvariantHoldsAtReset : Prop :=
  Invariant State.reset ∧ ∀ p : Params, p.legal = true → Invariant (State.resetWith p)

/-- Every step keeps the invariant, from every state that has it. -/
def Obligations.EveryStepKeepsTheInvariant : Prop :=
  ∀ s t : State, Invariant s → step s = .next t → Invariant t

/-- R25, R26 and R120: once MT_VALID = 1, no step but a Reset changes an entry of slots 0, 1 and 2 or MT_VALID. -/
def Obligations.PublishedMagicTableNeverChanges : Prop :=
  ∀ s t : State, Invariant s → s.mtValid = true → (∀ rest, s.pending ≠ .reset :: rest) → step s = .next t →
    MagicKept s t

/-- R74 and R121: slots 0, 1 and 2 and MT_VALID change only together and whole, at any step: after it either they are as
before, or all 768 entries are the published ones with MT_VALID = 1, or the block was reset. -/
def Obligations.MagicTablePublicationIsAtomic : Prop :=
  ∀ s t : State, step s = .next t →
    MagicKept s t ∨ (MagicPublished t ∧ t.mtValid = true) ∨
      (∃ rest, s.pending = .reset :: rest) ∧ t.mtValid = false

/-- R38 as the guarded step has it: two states that differ only in the values of unwritten cells stay so, and neither
stops where the other goes on. So the values the model holds in unwritten cells (logs 2 and 3) reach nothing written. -/
def Obligations.UnwrittenValuesReachNothingWritten : Prop :=
  ∀ s t s' : State, AgreeOnWritten s t → guardedStep s = .next s' →
    ∃ t', guardedStep t = .next t' ∧ AgreeOnWritten s' t'
end

