-- ==== Sys2Proof/Laws/Decode.lean ====
section
/-! SUPPORT. The small lemmas of the encoding: each bit of each format's word (R82 to R90), the register fields, and when a
row of R93 answers. -/

namespace Sys2Proof

@[simp] theorem vregBits_toFin (r : VReg) : (vregBits r).toFin = r := rfl

@[simp] theorem vregBits_of_toFin (b : BitVec 3) : vregBits b.toFin = b := rfl

@[simp] theorem vregBits_zero : vregBits 0 = 0#3 := rfl

@[simp] theorem kregBits_toFin (k : KReg) : (kregBits k).toFin = k := rfl

@[simp] theorem kregBits_of_toFin (b : BitVec 2) : kregBits b.toFin = b := rfl

/-- A row answers its command exactly when the word's fixed bits match. -/
theorem matchRow_eq_ok (w mask value : Word) (i j : Instr) :
    matchRow w mask value i = .ok j ↔ w &&& mask = value ∧ i = j := by
  unfold matchRow
  split <;> simp_all

theorem formatN_bit (op : BitVec 6) (i : Nat) :
    (formatN op).getLsbD i =
      if i < 26 then false
      else op.getLsbD (i - 26) := by
  refine (BitVec.getLsbD_append (x := op) (y := 0#26)).trans ?_
  grind

theorem formatB_bit (op : BitVec 6) (lo hi : BitVec 9) (i : Nat) :
    (formatB op lo hi).getLsbD i =
      if i < 9 then hi.getLsbD i
      else if i < 18 then lo.getLsbD (i - 9)
      else if i < 26 then false
      else op.getLsbD (i - 26) := by
  refine (BitVec.getLsbD_append (x := op ++ 0#8 ++ lo) (y := hi)).trans ?_
  grind

theorem formatRT_bit (op : BitVec 6) (rd ra : VReg) (tsel : BitVec 3) (half : BitVec 1) (i : Nat) :
    (formatRT op rd ra tsel half).getLsbD i =
      if i < 16 then false
      else if i < 17 then half.getLsbD (i - 16)
      else if i < 20 then tsel.getLsbD (i - 17)
      else if i < 23 then (vregBits ra).getLsbD (i - 20)
      else if i < 26 then (vregBits rd).getLsbD (i - 23)
      else op.getLsbD (i - 26) := by
  refine (BitVec.getLsbD_append (x := op ++ vregBits rd ++ vregBits ra ++ tsel ++ half) (y := 0#16)).trans ?_
  grind

theorem formatRK_bit (op : BitVec 6) (kd : KReg) (ra : VReg) (i : Nat) :
    (formatRK op kd ra).getLsbD i =
      if i < 20 then false
      else if i < 23 then (vregBits ra).getLsbD (i - 20)
      else if i < 25 then (kregBits kd).getLsbD (i - 23)
      else if i < 26 then false
      else op.getLsbD (i - 26) := by
  refine (BitVec.getLsbD_append (x := op ++ 0#1 ++ kregBits kd ++ vregBits ra) (y := 0#20)).trans ?_
  grind

theorem formatRB_bit (op : BitVec 6) (rd ra rb : VReg) (kc : KReg) (i : Nat) :
    (formatRB op rd ra rb kc).getLsbD i =
      if i < 15 then false
      else if i < 17 then (kregBits kc).getLsbD (i - 15)
      else if i < 20 then (vregBits rb).getLsbD (i - 17)
      else if i < 23 then (vregBits ra).getLsbD (i - 20)
      else if i < 26 then (vregBits rd).getLsbD (i - 23)
      else op.getLsbD (i - 26) := by
  refine (BitVec.getLsbD_append (x := op ++ vregBits rd ++ vregBits ra ++ vregBits rb ++ kregBits kc) (y := 0#15)).trans ?_
  grind

theorem formatR2_bit (op : BitVec 6) (rd ra : VReg) (i : Nat) :
    (formatR2 op rd ra).getLsbD i =
      if i < 20 then false
      else if i < 23 then (vregBits ra).getLsbD (i - 20)
      else if i < 26 then (vregBits rd).getLsbD (i - 23)
      else op.getLsbD (i - 26) := by
  refine (BitVec.getLsbD_append (x := op ++ vregBits rd ++ vregBits ra) (y := 0#20)).trans ?_
  grind

theorem formatR3_bit (op : BitVec 6) (rd ra rb : VReg) (i : Nat) :
    (formatR3 op rd ra rb).getLsbD i =
      if i < 17 then false
      else if i < 20 then (vregBits rb).getLsbD (i - 17)
      else if i < 23 then (vregBits ra).getLsbD (i - 20)
      else if i < 26 then (vregBits rd).getLsbD (i - 23)
      else op.getLsbD (i - 26) := by
  refine (BitVec.getLsbD_append (x := op ++ vregBits rd ++ vregBits ra ++ vregBits rb) (y := 0#17)).trans ?_
  grind

theorem formatI_bit (op : BitVec 6) (rd : VReg) (imm8 : BitVec 8) (i : Nat) :
    (formatI op rd imm8).getLsbD i =
      if i < 8 then imm8.getLsbD i
      else if i < 23 then false
      else if i < 26 then (vregBits rd).getLsbD (i - 23)
      else op.getLsbD (i - 26) := by
  refine (BitVec.getLsbD_append (x := op ++ vregBits rd ++ 0#15) (y := imm8)).trans ?_
  grind

theorem formatM_bit (op : BitVec 6) (r : VReg) (addr : BitVec 16) (i : Nat) :
    (formatM op r addr).getLsbD i =
      if i < 16 then addr.getLsbD i
      else if i < 23 then false
      else if i < 26 then (vregBits r).getLsbD (i - 23)
      else op.getLsbD (i - 26) := by
  refine (BitVec.getLsbD_append (x := op ++ vregBits r ++ 0#7) (y := addr)).trans ?_
  grind

end Sys2Proof
end

