-- ==== Sys2Proof/Laws/State.lean ====
section
/-! SUPPORT. One lemma per field per update of State, so that no later proof unfolds a record update. -/

namespace Sys2Proof.Machine

open Sys2Proof

/-! ### writeCells -/

section

variable (s : State) (r : VReg) (f : Nat → Stored Byte)

@[simp] theorem State.writeCells_params : (s.writeCells r f).params = s.params := rfl
@[simp] theorem State.writeCells_v : (s.writeCells r f).v = s.v.set r ((List.range s.params.w).map f) := rfl
@[simp] theorem State.writeCells_k : (s.writeCells r f).k = s.k := rfl
@[simp] theorem State.writeCells_tblM : (s.writeCells r f).tblM = s.tblM := rfl
@[simp] theorem State.writeCells_tblSh1 : (s.writeCells r f).tblSh1 = s.tblSh1 := rfl
@[simp] theorem State.writeCells_tblSh2 : (s.writeCells r f).tblSh2 = s.tblSh2 := rfl
@[simp] theorem State.writeCells_user : (s.writeCells r f).user = s.user := rfl
@[simp] theorem State.writeCells_buf : (s.writeCells r f).buf = s.buf := rfl
@[simp] theorem State.writeCells_mtValid : (s.writeCells r f).mtValid = s.mtValid := rfl
@[simp] theorem State.writeCells_halted : (s.writeCells r f).halted = s.halted := rfl
@[simp] theorem State.writeCells_dz : (s.writeCells r f).dz = s.dz := rfl
@[simp] theorem State.writeCells_errCode : (s.writeCells r f).errCode = s.errCode := rfl
@[simp] theorem State.writeCells_cmdcnt : (s.writeCells r f).cmdcnt = s.cmdcnt := rfl
@[simp] theorem State.writeCells_erridx : (s.writeCells r f).erridx = s.erridx := rfl
@[simp] theorem State.writeCells_errcmd : (s.writeCells r f).errcmd = s.errcmd := rfl
@[simp] theorem State.writeCells_errinfo : (s.writeCells r f).errinfo = s.errinfo := rfl
@[simp] theorem State.writeCells_pending : (s.writeCells r f).pending = s.pending := rfl
@[simp] theorem State.writeCells_reply : (s.writeCells r f).reply = s.reply := rfl
@[simp] theorem State.writeCells_draws : (s.writeCells r f).draws = s.draws := rfl

end

/-! ### writeV -/

section

variable (s : State) (r : VReg) (f : Nat → Byte)

@[simp] theorem State.writeV_params : (s.writeV r f).params = s.params := rfl
@[simp] theorem State.writeV_v : (s.writeV r f).v = s.v.set r ((List.range s.params.w).map fun i => { val := f i, written := true }) := rfl
@[simp] theorem State.writeV_k : (s.writeV r f).k = s.k := rfl
@[simp] theorem State.writeV_tblM : (s.writeV r f).tblM = s.tblM := rfl
@[simp] theorem State.writeV_tblSh1 : (s.writeV r f).tblSh1 = s.tblSh1 := rfl
@[simp] theorem State.writeV_tblSh2 : (s.writeV r f).tblSh2 = s.tblSh2 := rfl
@[simp] theorem State.writeV_user : (s.writeV r f).user = s.user := rfl
@[simp] theorem State.writeV_buf : (s.writeV r f).buf = s.buf := rfl
@[simp] theorem State.writeV_mtValid : (s.writeV r f).mtValid = s.mtValid := rfl
@[simp] theorem State.writeV_halted : (s.writeV r f).halted = s.halted := rfl
@[simp] theorem State.writeV_dz : (s.writeV r f).dz = s.dz := rfl
@[simp] theorem State.writeV_errCode : (s.writeV r f).errCode = s.errCode := rfl
@[simp] theorem State.writeV_cmdcnt : (s.writeV r f).cmdcnt = s.cmdcnt := rfl
@[simp] theorem State.writeV_erridx : (s.writeV r f).erridx = s.erridx := rfl
@[simp] theorem State.writeV_errcmd : (s.writeV r f).errcmd = s.errcmd := rfl
@[simp] theorem State.writeV_errinfo : (s.writeV r f).errinfo = s.errinfo := rfl
@[simp] theorem State.writeV_pending : (s.writeV r f).pending = s.pending := rfl
@[simp] theorem State.writeV_reply : (s.writeV r f).reply = s.reply := rfl
@[simp] theorem State.writeV_draws : (s.writeV r f).draws = s.draws := rfl

end

/-! ### mapLanes2 -/

section

variable (s : State) (f : Byte → Byte → Byte) (rd ra rb : VReg)

@[simp] theorem State.mapLanes2_params : (s.mapLanes2 f rd ra rb).params = s.params := rfl
@[simp] theorem State.mapLanes2_v : (s.mapLanes2 f rd ra rb).v = s.v.set rd ((List.range s.params.w).map fun i => { val := f (s.lane ra i) (s.lane rb i), written := true }) := rfl
@[simp] theorem State.mapLanes2_k : (s.mapLanes2 f rd ra rb).k = s.k := rfl
@[simp] theorem State.mapLanes2_tblM : (s.mapLanes2 f rd ra rb).tblM = s.tblM := rfl
@[simp] theorem State.mapLanes2_tblSh1 : (s.mapLanes2 f rd ra rb).tblSh1 = s.tblSh1 := rfl
@[simp] theorem State.mapLanes2_tblSh2 : (s.mapLanes2 f rd ra rb).tblSh2 = s.tblSh2 := rfl
@[simp] theorem State.mapLanes2_user : (s.mapLanes2 f rd ra rb).user = s.user := rfl
@[simp] theorem State.mapLanes2_buf : (s.mapLanes2 f rd ra rb).buf = s.buf := rfl
@[simp] theorem State.mapLanes2_mtValid : (s.mapLanes2 f rd ra rb).mtValid = s.mtValid := rfl
@[simp] theorem State.mapLanes2_halted : (s.mapLanes2 f rd ra rb).halted = s.halted := rfl
@[simp] theorem State.mapLanes2_dz : (s.mapLanes2 f rd ra rb).dz = s.dz := rfl
@[simp] theorem State.mapLanes2_errCode : (s.mapLanes2 f rd ra rb).errCode = s.errCode := rfl
@[simp] theorem State.mapLanes2_cmdcnt : (s.mapLanes2 f rd ra rb).cmdcnt = s.cmdcnt := rfl
@[simp] theorem State.mapLanes2_erridx : (s.mapLanes2 f rd ra rb).erridx = s.erridx := rfl
@[simp] theorem State.mapLanes2_errcmd : (s.mapLanes2 f rd ra rb).errcmd = s.errcmd := rfl
@[simp] theorem State.mapLanes2_errinfo : (s.mapLanes2 f rd ra rb).errinfo = s.errinfo := rfl
@[simp] theorem State.mapLanes2_pending : (s.mapLanes2 f rd ra rb).pending = s.pending := rfl
@[simp] theorem State.mapLanes2_reply : (s.mapLanes2 f rd ra rb).reply = s.reply := rfl
@[simp] theorem State.mapLanes2_draws : (s.mapLanes2 f rd ra rb).draws = s.draws := rfl

end

/-! ### writeK -/

section

variable (s : State) (c : KReg) (f : Nat → Bool)

@[simp] theorem State.writeK_params : (s.writeK c f).params = s.params := rfl
@[simp] theorem State.writeK_v : (s.writeK c f).v = s.v := rfl
@[simp] theorem State.writeK_k : (s.writeK c f).k = s.k.set c ((List.range s.params.w).map fun i => { val := f i, written := true }) := rfl
@[simp] theorem State.writeK_tblM : (s.writeK c f).tblM = s.tblM := rfl
@[simp] theorem State.writeK_tblSh1 : (s.writeK c f).tblSh1 = s.tblSh1 := rfl
@[simp] theorem State.writeK_tblSh2 : (s.writeK c f).tblSh2 = s.tblSh2 := rfl
@[simp] theorem State.writeK_user : (s.writeK c f).user = s.user := rfl
@[simp] theorem State.writeK_buf : (s.writeK c f).buf = s.buf := rfl
@[simp] theorem State.writeK_mtValid : (s.writeK c f).mtValid = s.mtValid := rfl
@[simp] theorem State.writeK_halted : (s.writeK c f).halted = s.halted := rfl
@[simp] theorem State.writeK_dz : (s.writeK c f).dz = s.dz := rfl
@[simp] theorem State.writeK_errCode : (s.writeK c f).errCode = s.errCode := rfl
@[simp] theorem State.writeK_cmdcnt : (s.writeK c f).cmdcnt = s.cmdcnt := rfl
@[simp] theorem State.writeK_erridx : (s.writeK c f).erridx = s.erridx := rfl
@[simp] theorem State.writeK_errcmd : (s.writeK c f).errcmd = s.errcmd := rfl
@[simp] theorem State.writeK_errinfo : (s.writeK c f).errinfo = s.errinfo := rfl
@[simp] theorem State.writeK_pending : (s.writeK c f).pending = s.pending := rfl
@[simp] theorem State.writeK_reply : (s.writeK c f).reply = s.reply := rfl
@[simp] theorem State.writeK_draws : (s.writeK c f).draws = s.draws := rfl

end

/-! ### build -/

section

variable (s : State)

@[simp] theorem State.build_params : (s.build).params = s.params := rfl
@[simp] theorem State.build_v : (s.build).v = s.v := rfl
@[simp] theorem State.build_k : (s.build).k = s.k := rfl
@[simp] theorem State.build_tblM : (s.build).tblM = magicSlot magicM := rfl
@[simp] theorem State.build_tblSh1 : (s.build).tblSh1 = magicSlot magicSh1 := rfl
@[simp] theorem State.build_tblSh2 : (s.build).tblSh2 = magicSlot magicSh2 := rfl
@[simp] theorem State.build_user : (s.build).user = s.user := rfl
@[simp] theorem State.build_buf : (s.build).buf = s.buf := rfl
@[simp] theorem State.build_mtValid : (s.build).mtValid = true := rfl
@[simp] theorem State.build_halted : (s.build).halted = s.halted := rfl
@[simp] theorem State.build_dz : (s.build).dz = s.dz := rfl
@[simp] theorem State.build_errCode : (s.build).errCode = s.errCode := rfl
@[simp] theorem State.build_cmdcnt : (s.build).cmdcnt = s.cmdcnt := rfl
@[simp] theorem State.build_erridx : (s.build).erridx = s.erridx := rfl
@[simp] theorem State.build_errcmd : (s.build).errcmd = s.errcmd := rfl
@[simp] theorem State.build_errinfo : (s.build).errinfo = s.errinfo := rfl
@[simp] theorem State.build_pending : (s.build).pending = s.pending := rfl
@[simp] theorem State.build_reply : (s.build).reply = s.reply := rfl
@[simp] theorem State.build_draws : (s.build).draws = s.draws := rfl

end

/-! ### complete -/

section

variable (s : State)

@[simp] theorem State.complete_params : (s.complete).params = s.params := rfl
@[simp] theorem State.complete_v : (s.complete).v = s.v := rfl
@[simp] theorem State.complete_k : (s.complete).k = s.k := rfl
@[simp] theorem State.complete_tblM : (s.complete).tblM = s.tblM := rfl
@[simp] theorem State.complete_tblSh1 : (s.complete).tblSh1 = s.tblSh1 := rfl
@[simp] theorem State.complete_tblSh2 : (s.complete).tblSh2 = s.tblSh2 := rfl
@[simp] theorem State.complete_user : (s.complete).user = s.user := rfl
@[simp] theorem State.complete_buf : (s.complete).buf = s.buf := rfl
@[simp] theorem State.complete_mtValid : (s.complete).mtValid = s.mtValid := rfl
@[simp] theorem State.complete_halted : (s.complete).halted = s.halted := rfl
@[simp] theorem State.complete_dz : (s.complete).dz = s.dz := rfl
@[simp] theorem State.complete_errCode : (s.complete).errCode = s.errCode := rfl
@[simp] theorem State.complete_cmdcnt : (s.complete).cmdcnt = s.cmdcnt + 1 := rfl
@[simp] theorem State.complete_erridx : (s.complete).erridx = s.erridx := rfl
@[simp] theorem State.complete_errcmd : (s.complete).errcmd = s.errcmd := rfl
@[simp] theorem State.complete_errinfo : (s.complete).errinfo = s.errinfo := rfl
@[simp] theorem State.complete_pending : (s.complete).pending = s.pending := rfl
@[simp] theorem State.complete_reply : (s.complete).reply = s.reply := rfl
@[simp] theorem State.complete_draws : (s.complete).draws = s.draws := rfl

end

/-! ### raiseError -/

section

variable (s : State) (c : Word) (e : ErrCode) (x : Word)

@[simp] theorem State.raiseError_params : (s.raiseError c e x).params = s.params := rfl
@[simp] theorem State.raiseError_v : (s.raiseError c e x).v = s.v := rfl
@[simp] theorem State.raiseError_k : (s.raiseError c e x).k = s.k := rfl
@[simp] theorem State.raiseError_tblM : (s.raiseError c e x).tblM = s.tblM := rfl
@[simp] theorem State.raiseError_tblSh1 : (s.raiseError c e x).tblSh1 = s.tblSh1 := rfl
@[simp] theorem State.raiseError_tblSh2 : (s.raiseError c e x).tblSh2 = s.tblSh2 := rfl
@[simp] theorem State.raiseError_user : (s.raiseError c e x).user = s.user := rfl
@[simp] theorem State.raiseError_buf : (s.raiseError c e x).buf = s.buf := rfl
@[simp] theorem State.raiseError_mtValid : (s.raiseError c e x).mtValid = s.mtValid := rfl
@[simp] theorem State.raiseError_halted : (s.raiseError c e x).halted = true := rfl
@[simp] theorem State.raiseError_dz : (s.raiseError c e x).dz = s.dz := rfl
@[simp] theorem State.raiseError_errCode : (s.raiseError c e x).errCode = e := rfl
@[simp] theorem State.raiseError_cmdcnt : (s.raiseError c e x).cmdcnt = s.cmdcnt + 1 := rfl
@[simp] theorem State.raiseError_erridx : (s.raiseError c e x).erridx = s.cmdcnt := rfl
@[simp] theorem State.raiseError_errcmd : (s.raiseError c e x).errcmd = c := rfl
@[simp] theorem State.raiseError_errinfo : (s.raiseError c e x).errinfo = x := rfl
@[simp] theorem State.raiseError_pending : (s.raiseError c e x).pending = s.pending := rfl
@[simp] theorem State.raiseError_reply : (s.raiseError c e x).reply = s.reply := rfl
@[simp] theorem State.raiseError_draws : (s.raiseError c e x).draws = s.draws := rfl

end

/-! ### errorReturn -/

section

variable (s : State)

@[simp] theorem State.errorReturn_params : (s.errorReturn).params = s.params := rfl
@[simp] theorem State.errorReturn_v : (s.errorReturn).v = s.v := rfl
@[simp] theorem State.errorReturn_k : (s.errorReturn).k = s.k := rfl
@[simp] theorem State.errorReturn_tblM : (s.errorReturn).tblM = s.tblM := rfl
@[simp] theorem State.errorReturn_tblSh1 : (s.errorReturn).tblSh1 = s.tblSh1 := rfl
@[simp] theorem State.errorReturn_tblSh2 : (s.errorReturn).tblSh2 = s.tblSh2 := rfl
@[simp] theorem State.errorReturn_user : (s.errorReturn).user = s.user := rfl
@[simp] theorem State.errorReturn_buf : (s.errorReturn).buf = s.buf := rfl
@[simp] theorem State.errorReturn_mtValid : (s.errorReturn).mtValid = s.mtValid := rfl
@[simp] theorem State.errorReturn_halted : (s.errorReturn).halted = false := rfl
@[simp] theorem State.errorReturn_dz : (s.errorReturn).dz = s.dz := rfl
@[simp] theorem State.errorReturn_errCode : (s.errorReturn).errCode = .noError := rfl
@[simp] theorem State.errorReturn_cmdcnt : (s.errorReturn).cmdcnt = s.cmdcnt := rfl
@[simp] theorem State.errorReturn_erridx : (s.errorReturn).erridx = s.erridx := rfl
@[simp] theorem State.errorReturn_errcmd : (s.errorReturn).errcmd = s.errcmd := rfl
@[simp] theorem State.errorReturn_errinfo : (s.errorReturn).errinfo = s.errinfo := rfl
@[simp] theorem State.errorReturn_pending : (s.errorReturn).pending = s.pending := rfl
@[simp] theorem State.errorReturn_reply : (s.errorReturn).reply = s.reply := rfl
@[simp] theorem State.errorReturn_draws : (s.errorReturn).draws = s.draws := rfl

end

/-! ### clearDz -/

section

variable (s : State)

@[simp] theorem State.clearDz_params : (s.clearDz).params = s.params := rfl
@[simp] theorem State.clearDz_v : (s.clearDz).v = s.v := rfl
@[simp] theorem State.clearDz_k : (s.clearDz).k = s.k := rfl
@[simp] theorem State.clearDz_tblM : (s.clearDz).tblM = s.tblM := rfl
@[simp] theorem State.clearDz_tblSh1 : (s.clearDz).tblSh1 = s.tblSh1 := rfl
@[simp] theorem State.clearDz_tblSh2 : (s.clearDz).tblSh2 = s.tblSh2 := rfl
@[simp] theorem State.clearDz_user : (s.clearDz).user = s.user := rfl
@[simp] theorem State.clearDz_buf : (s.clearDz).buf = s.buf := rfl
@[simp] theorem State.clearDz_mtValid : (s.clearDz).mtValid = s.mtValid := rfl
@[simp] theorem State.clearDz_halted : (s.clearDz).halted = s.halted := rfl
@[simp] theorem State.clearDz_dz : (s.clearDz).dz = false := rfl
@[simp] theorem State.clearDz_errCode : (s.clearDz).errCode = s.errCode := rfl
@[simp] theorem State.clearDz_cmdcnt : (s.clearDz).cmdcnt = s.cmdcnt := rfl
@[simp] theorem State.clearDz_erridx : (s.clearDz).erridx = s.erridx := rfl
@[simp] theorem State.clearDz_errcmd : (s.clearDz).errcmd = s.errcmd := rfl
@[simp] theorem State.clearDz_errinfo : (s.clearDz).errinfo = s.errinfo := rfl
@[simp] theorem State.clearDz_pending : (s.clearDz).pending = s.pending := rfl
@[simp] theorem State.clearDz_reply : (s.clearDz).reply = s.reply := rfl
@[simp] theorem State.clearDz_draws : (s.clearDz).draws = s.draws := rfl

end

/-! ### noteDz -/

section

variable (s : State) (zero : Bool)

@[simp] theorem State.noteDz_params : (s.noteDz zero).params = s.params := rfl
@[simp] theorem State.noteDz_v : (s.noteDz zero).v = s.v := rfl
@[simp] theorem State.noteDz_k : (s.noteDz zero).k = s.k := rfl
@[simp] theorem State.noteDz_tblM : (s.noteDz zero).tblM = s.tblM := rfl
@[simp] theorem State.noteDz_tblSh1 : (s.noteDz zero).tblSh1 = s.tblSh1 := rfl
@[simp] theorem State.noteDz_tblSh2 : (s.noteDz zero).tblSh2 = s.tblSh2 := rfl
@[simp] theorem State.noteDz_user : (s.noteDz zero).user = s.user := rfl
@[simp] theorem State.noteDz_buf : (s.noteDz zero).buf = s.buf := rfl
@[simp] theorem State.noteDz_mtValid : (s.noteDz zero).mtValid = s.mtValid := rfl
@[simp] theorem State.noteDz_halted : (s.noteDz zero).halted = s.halted := rfl
@[simp] theorem State.noteDz_dz : (s.noteDz zero).dz = (s.dz || zero) := rfl
@[simp] theorem State.noteDz_errCode : (s.noteDz zero).errCode = s.errCode := rfl
@[simp] theorem State.noteDz_cmdcnt : (s.noteDz zero).cmdcnt = s.cmdcnt := rfl
@[simp] theorem State.noteDz_erridx : (s.noteDz zero).erridx = s.erridx := rfl
@[simp] theorem State.noteDz_errcmd : (s.noteDz zero).errcmd = s.errcmd := rfl
@[simp] theorem State.noteDz_errinfo : (s.noteDz zero).errinfo = s.errinfo := rfl
@[simp] theorem State.noteDz_pending : (s.noteDz zero).pending = s.pending := rfl
@[simp] theorem State.noteDz_reply : (s.noteDz zero).reply = s.reply := rfl
@[simp] theorem State.noteDz_draws : (s.noteDz zero).draws = s.draws := rfl

end

/-! ### resetWith -/

section

variable (p : Params)

@[simp] theorem State.resetWith_params : (State.resetWith p).params = p := rfl
@[simp] theorem State.resetWith_v : (State.resetWith p).v = Vector.replicate 8 (List.replicate p.w { val := 0, written := false }) := rfl
@[simp] theorem State.resetWith_k : (State.resetWith p).k = Vector.replicate 4 (List.replicate p.w { val := false, written := false }) := rfl
@[simp] theorem State.resetWith_buf : (State.resetWith p).buf = [] := rfl
@[simp] theorem State.resetWith_mtValid : (State.resetWith p).mtValid = false := rfl
@[simp] theorem State.resetWith_halted : (State.resetWith p).halted = false := rfl
@[simp] theorem State.resetWith_dz : (State.resetWith p).dz = false := rfl
@[simp] theorem State.resetWith_errCode : (State.resetWith p).errCode = .noError := rfl
@[simp] theorem State.resetWith_cmdcnt : (State.resetWith p).cmdcnt = 0 := rfl
@[simp] theorem State.resetWith_erridx : (State.resetWith p).erridx = 0 := rfl
@[simp] theorem State.resetWith_errcmd : (State.resetWith p).errcmd = 0 := rfl
@[simp] theorem State.resetWith_errinfo : (State.resetWith p).errinfo = 0 := rfl
@[simp] theorem State.resetWith_pending : (State.resetWith p).pending = [] := rfl
@[simp] theorem State.resetWith_reply : (State.resetWith p).reply = none := rfl
@[simp] theorem State.resetWith_draws : (State.resetWith p).draws = 0 := rfl

end

/-! ### resetBlock -/

section

variable (s : State)

@[simp] theorem State.resetBlock_params : s.resetBlock.params = s.params := rfl
@[simp] theorem State.resetBlock_v : s.resetBlock.v = (State.resetWith s.params).v := rfl
@[simp] theorem State.resetBlock_k : s.resetBlock.k = (State.resetWith s.params).k := rfl
@[simp] theorem State.resetBlock_tblM : s.resetBlock.tblM = (State.resetWith s.params).tblM := rfl
@[simp] theorem State.resetBlock_tblSh1 : s.resetBlock.tblSh1 = (State.resetWith s.params).tblSh1 := rfl
@[simp] theorem State.resetBlock_tblSh2 : s.resetBlock.tblSh2 = (State.resetWith s.params).tblSh2 := rfl
@[simp] theorem State.resetBlock_user : s.resetBlock.user = (State.resetWith s.params).user := rfl
@[simp] theorem State.resetBlock_buf : s.resetBlock.buf = (State.resetWith s.params).buf := rfl
@[simp] theorem State.resetBlock_mtValid : s.resetBlock.mtValid = (State.resetWith s.params).mtValid := rfl
@[simp] theorem State.resetBlock_halted : s.resetBlock.halted = (State.resetWith s.params).halted := rfl
@[simp] theorem State.resetBlock_dz : s.resetBlock.dz = (State.resetWith s.params).dz := rfl
@[simp] theorem State.resetBlock_errCode : s.resetBlock.errCode = (State.resetWith s.params).errCode := rfl
@[simp] theorem State.resetBlock_cmdcnt : s.resetBlock.cmdcnt = (State.resetWith s.params).cmdcnt := rfl
@[simp] theorem State.resetBlock_erridx : s.resetBlock.erridx = (State.resetWith s.params).erridx := rfl
@[simp] theorem State.resetBlock_errcmd : s.resetBlock.errcmd = (State.resetWith s.params).errcmd := rfl
@[simp] theorem State.resetBlock_errinfo : s.resetBlock.errinfo = (State.resetWith s.params).errinfo := rfl
@[simp] theorem State.resetBlock_pending : s.resetBlock.pending = s.pending := rfl
@[simp] theorem State.resetBlock_reply : s.resetBlock.reply = s.reply := rfl
@[simp] theorem State.resetBlock_draws : s.resetBlock.draws = s.draws := rfl

end

/-! ### The lazy build: what it does not touch -/

section

variable (s : State) (t : Slot)

@[simp] theorem State.lazyBuild_params : s.lazyBuild.params = s.params := by
  unfold State.lazyBuild; split <;> rfl

@[simp] theorem State.lazyBuildFor_params : (s.lazyBuildFor t).params = s.params := by
  unfold State.lazyBuildFor; split <;> simp

@[simp] theorem State.lazyBuild_v : s.lazyBuild.v = s.v := by
  unfold State.lazyBuild; split <;> rfl

@[simp] theorem State.lazyBuildFor_v : (s.lazyBuildFor t).v = s.v := by
  unfold State.lazyBuildFor; split <;> simp

@[simp] theorem State.lazyBuild_k : s.lazyBuild.k = s.k := by
  unfold State.lazyBuild; split <;> rfl

@[simp] theorem State.lazyBuildFor_k : (s.lazyBuildFor t).k = s.k := by
  unfold State.lazyBuildFor; split <;> simp

@[simp] theorem State.lazyBuild_user : s.lazyBuild.user = s.user := by
  unfold State.lazyBuild; split <;> rfl

@[simp] theorem State.lazyBuildFor_user : (s.lazyBuildFor t).user = s.user := by
  unfold State.lazyBuildFor; split <;> simp

@[simp] theorem State.lazyBuild_buf : s.lazyBuild.buf = s.buf := by
  unfold State.lazyBuild; split <;> rfl

@[simp] theorem State.lazyBuildFor_buf : (s.lazyBuildFor t).buf = s.buf := by
  unfold State.lazyBuildFor; split <;> simp

@[simp] theorem State.lazyBuild_halted : s.lazyBuild.halted = s.halted := by
  unfold State.lazyBuild; split <;> rfl

@[simp] theorem State.lazyBuildFor_halted : (s.lazyBuildFor t).halted = s.halted := by
  unfold State.lazyBuildFor; split <;> simp

@[simp] theorem State.lazyBuild_dz : s.lazyBuild.dz = s.dz := by
  unfold State.lazyBuild; split <;> rfl

@[simp] theorem State.lazyBuildFor_dz : (s.lazyBuildFor t).dz = s.dz := by
  unfold State.lazyBuildFor; split <;> simp

@[simp] theorem State.lazyBuild_errCode : s.lazyBuild.errCode = s.errCode := by
  unfold State.lazyBuild; split <;> rfl

@[simp] theorem State.lazyBuildFor_errCode : (s.lazyBuildFor t).errCode = s.errCode := by
  unfold State.lazyBuildFor; split <;> simp

@[simp] theorem State.lazyBuild_cmdcnt : s.lazyBuild.cmdcnt = s.cmdcnt := by
  unfold State.lazyBuild; split <;> rfl

@[simp] theorem State.lazyBuildFor_cmdcnt : (s.lazyBuildFor t).cmdcnt = s.cmdcnt := by
  unfold State.lazyBuildFor; split <;> simp

@[simp] theorem State.lazyBuild_erridx : s.lazyBuild.erridx = s.erridx := by
  unfold State.lazyBuild; split <;> rfl

@[simp] theorem State.lazyBuildFor_erridx : (s.lazyBuildFor t).erridx = s.erridx := by
  unfold State.lazyBuildFor; split <;> simp

@[simp] theorem State.lazyBuild_errcmd : s.lazyBuild.errcmd = s.errcmd := by
  unfold State.lazyBuild; split <;> rfl

@[simp] theorem State.lazyBuildFor_errcmd : (s.lazyBuildFor t).errcmd = s.errcmd := by
  unfold State.lazyBuildFor; split <;> simp

@[simp] theorem State.lazyBuild_errinfo : s.lazyBuild.errinfo = s.errinfo := by
  unfold State.lazyBuild; split <;> rfl

@[simp] theorem State.lazyBuildFor_errinfo : (s.lazyBuildFor t).errinfo = s.errinfo := by
  unfold State.lazyBuildFor; split <;> simp

@[simp] theorem State.lazyBuild_pending : s.lazyBuild.pending = s.pending := by
  unfold State.lazyBuild; split <;> rfl

@[simp] theorem State.lazyBuildFor_pending : (s.lazyBuildFor t).pending = s.pending := by
  unfold State.lazyBuildFor; split <;> simp

@[simp] theorem State.lazyBuild_reply : s.lazyBuild.reply = s.reply := by
  unfold State.lazyBuild; split <;> rfl

@[simp] theorem State.lazyBuildFor_reply : (s.lazyBuildFor t).reply = s.reply := by
  unfold State.lazyBuildFor; split <;> simp

@[simp] theorem State.lazyBuild_draws : s.lazyBuild.draws = s.draws := by
  unfold State.lazyBuild; split <;> rfl

@[simp] theorem State.lazyBuildFor_draws : (s.lazyBuildFor t).draws = s.draws := by
  unfold State.lazyBuildFor; split <;> simp

end

/-! ### writeStatus: what it does not touch -/

section

variable (s : State) (x : Word)

@[simp] theorem State.writeStatus_params : (s.writeStatus x).params = s.params := by
  unfold State.writeStatus; split <;> split <;> rfl

@[simp] theorem State.writeStatus_v : (s.writeStatus x).v = s.v := by
  unfold State.writeStatus; split <;> split <;> rfl

@[simp] theorem State.writeStatus_k : (s.writeStatus x).k = s.k := by
  unfold State.writeStatus; split <;> split <;> rfl

@[simp] theorem State.writeStatus_tblM : (s.writeStatus x).tblM = s.tblM := by
  unfold State.writeStatus; split <;> split <;> rfl

@[simp] theorem State.writeStatus_tblSh1 : (s.writeStatus x).tblSh1 = s.tblSh1 := by
  unfold State.writeStatus; split <;> split <;> rfl

@[simp] theorem State.writeStatus_tblSh2 : (s.writeStatus x).tblSh2 = s.tblSh2 := by
  unfold State.writeStatus; split <;> split <;> rfl

@[simp] theorem State.writeStatus_user : (s.writeStatus x).user = s.user := by
  unfold State.writeStatus; split <;> split <;> rfl

@[simp] theorem State.writeStatus_buf : (s.writeStatus x).buf = s.buf := by
  unfold State.writeStatus; split <;> split <;> rfl

@[simp] theorem State.writeStatus_mtValid : (s.writeStatus x).mtValid = s.mtValid := by
  unfold State.writeStatus; split <;> split <;> rfl

@[simp] theorem State.writeStatus_cmdcnt : (s.writeStatus x).cmdcnt = s.cmdcnt := by
  unfold State.writeStatus; split <;> split <;> rfl

@[simp] theorem State.writeStatus_erridx : (s.writeStatus x).erridx = s.erridx := by
  unfold State.writeStatus; split <;> split <;> rfl

@[simp] theorem State.writeStatus_errcmd : (s.writeStatus x).errcmd = s.errcmd := by
  unfold State.writeStatus; split <;> split <;> rfl

@[simp] theorem State.writeStatus_errinfo : (s.writeStatus x).errinfo = s.errinfo := by
  unfold State.writeStatus; split <;> split <;> rfl

@[simp] theorem State.writeStatus_pending : (s.writeStatus x).pending = s.pending := by
  unfold State.writeStatus; split <;> split <;> rfl

@[simp] theorem State.writeStatus_reply : (s.writeStatus x).reply = s.reply := by
  unfold State.writeStatus; split <;> split <;> rfl

@[simp] theorem State.writeStatus_draws : (s.writeStatus x).draws = s.draws := by
  unfold State.writeStatus; split <;> split <;> rfl

end

end Sys2Proof.Machine
end

