-- ==== Sys2Proof/Laws/Ops.lean ====
section
/-! SUPPORT. What each shared operation can do, once: reading lanes after a write, BUF (read after write, the
canonical form), the lazy build, slots, the lowest zero lane, the STATUS write and the draws. -/

namespace Sys2Proof.Machine

open Sys2Proof

/-! ### Lanes and mask bits -/

/-- A W-lane list read at a lane. -/
theorem getD_map_range {α : Type} (n i : Nat) (f : Nat → α) (d : α) :
    ((List.range n).map f).getD i d = if i < n then f i else d := by
  by_cases h : i < n <;> simp [h]

theorem State.laneCell_writeCells_same (s : State) (r : VReg) (f : Nat → Stored Byte) (i : Nat) :
    (s.writeCells r f).laneCell r i =
      if i < s.params.w then f i else { val := 0, written := false } := by
  simp only [State.laneCell, State.writeCells_v, Fin.getElem_fin, Vector.getElem_set_self]
  exact getD_map_range _ _ _ _

theorem State.laneCell_writeCells_other (s : State) {r r' : VReg} (h : r' ≠ r) (f : Nat → Stored Byte) (i : Nat) :
    (s.writeCells r f).laneCell r' i = s.laneCell r' i := by
  have h' : r.val ≠ r'.val := fun e => h (Fin.ext e.symm)
  simp [State.laneCell, Vector.getElem_set_ne _ _ h']

theorem State.laneCell_writeV_same (s : State) (r : VReg) (f : Nat → Byte) {i : Nat} (h : i < s.params.w) :
    (s.writeV r f).laneCell r i = { val := f i, written := true } := by
  rw [State.writeV, State.laneCell_writeCells_same, if_pos h]

theorem State.lane_writeV_same (s : State) (r : VReg) (f : Nat → Byte) {i : Nat} (h : i < s.params.w) :
    (s.writeV r f).lane r i = f i := by
  rw [State.lane, State.laneCell_writeV_same s r f h]

theorem State.lane_writeV_other (s : State) {r r' : VReg} (h : r' ≠ r) (f : Nat → Byte) (i : Nat) :
    (s.writeV r f).lane r' i = s.lane r' i := by
  rw [State.lane, State.writeV, State.laneCell_writeCells_other s h]
  rfl

theorem State.maskCell_writeK_same (s : State) (c : KReg) (f : Nat → Bool) {i : Nat} (h : i < s.params.w) :
    (s.writeK c f).maskCell c i = { val := f i, written := true } := by
  simp [State.maskCell, h]

theorem State.maskCell_writeK_other (s : State) {c c' : KReg} (h : c' ≠ c) (f : Nat → Bool) (i : Nat) :
    (s.writeK c f).maskCell c' i = s.maskCell c' i := by
  have h' : c.val ≠ c'.val := fun e => h (Fin.ext e.symm)
  simp [State.maskCell, Vector.getElem_set_ne _ _ h']

theorem getD_replicate_self {α : Type} (n i : Nat) (a : α) : (List.replicate n a).getD i a = a := by
  rw [List.getD_eq_getElem?_getD, List.getElem?_replicate]
  split <;> rfl

/-- After reset every lane holds the named value and is unwritten. -/
theorem State.laneCell_resetWith (p : Params) (r : VReg) (i : Nat) :
    (State.resetWith p).laneCell r i = { val := 0, written := false } := by
  simp only [State.laneCell, State.resetWith_v, Fin.getElem_fin, Vector.getElem_replicate]
  exact getD_replicate_self _ _ _

theorem State.maskCell_resetWith (p : Params) (c : KReg) (i : Nat) :
    (State.resetWith p).maskCell c i = { val := false, written := false } := by
  simp only [State.maskCell, State.resetWith_k, Fin.getElem_fin, Vector.getElem_replicate]
  exact getD_replicate_self _ _ _

theorem State.userCell_resetWith (p : Params) (j : Nat) :
    (State.resetWith p).userCell j = { val := 0, written := false } :=
  getD_replicate_self _ _ _

/-! ### BUF -/

theorem Memory.read_write (m : Memory) (x : Nat) (b : Byte) (y : Nat) :
    (m.write x b).read y = if x = y then some b else m.read y := by
  induction m with
  | nil => rfl
  | cons c m ih =>
    obtain ⟨a, d⟩ := c
    simp only [Memory.write]
    split
    · rfl
    · split
      · subst_vars; simp only [Memory.read]; split <;> rfl
      · simp only [Memory.read, ih]
        split <;> split <;> simp_all

theorem Memory.read_writeRange (m : Memory) (x : Nat) (bs : List Byte) (y : Nat) :
    (m.writeRange x bs).read y = if x ≤ y then (bs[y - x]?).or (m.read y) else m.read y := by
  induction bs generalizing m x with
  | nil => simp [Memory.writeRange]
  | cons b bs ih =>
    rw [Memory.writeRange, ih, Memory.read_write]
    rcases Nat.lt_trichotomy x y with h | rfl | h
    · obtain ⟨k, hk⟩ : ∃ k, y - x = k + 1 := ⟨y - x - 1, by omega⟩
      have : y - (x + 1) = k := by omega
      simp [hk, this, show x + 1 ≤ y by omega, show x ≤ y by omega, show x ≠ y by omega]
    · simp
    · simp [show ¬x + 1 ≤ y by omega, show ¬x ≤ y by omega, show x ≠ y by omega]

/-- The head address of a canonical memory is below every later one, in the form the induction uses. -/
theorem Memory.wf_cons (a : Nat) (b : Byte) (m : Memory) :
    Memory.wf ((a, b) :: m) = true ↔ (∀ c ∈ m.head?, a < c.1) ∧ m.wf = true := by
  cases m with
  | nil => simp [Memory.wf]
  | cons c m => obtain ⟨a', b'⟩ := c; simp [Memory.wf]

theorem Memory.write_head (m : Memory) (x : Nat) (b : Byte) :
    ∀ c ∈ (m.write x b).head?, c.1 = x ∨ ∃ d ∈ m.head?, c.1 = d.1 := by
  cases m with
  | nil => simp [Memory.write]
  | cons c m =>
    obtain ⟨a, d⟩ := c
    simp only [Memory.write]
    split
    · simp
    · split <;> simp

/-- A write keeps the canonical form. -/
theorem Memory.write_wf (m : Memory) (x : Nat) (b : Byte) (h : m.wf = true) : (m.write x b).wf = true := by
  induction m with
  | nil => rfl
  | cons c m ih =>
    obtain ⟨a, d⟩ := c
    have hm := (Memory.wf_cons a d m).1 h
    simp only [Memory.write]
    split
    · rw [Memory.wf_cons]; exact ⟨by simpa, h⟩
    · split
      · subst_vars; exact (Memory.wf_cons _ _ _).2 hm
      · rw [Memory.wf_cons]
        refine ⟨fun e he => ?_, ih hm.2⟩
        rcases Memory.write_head m x b e he with h1 | ⟨f, hf, h1⟩
        · omega
        · have := hm.1 f hf; omega

theorem Memory.writeRange_wf (m : Memory) (x : Nat) (bs : List Byte) (h : m.wf = true) :
    (m.writeRange x bs).wf = true := by
  induction bs generalizing m x with
  | nil => exact h
  | cons b bs ih => exact ih _ _ (Memory.write_wf m x b h)

/-- BUF of a block right after reset is in canonical form. -/
theorem State.resetWith_buf_wf (p : Params) : (State.resetWith p).buf.wf = true := rfl

theorem Memory.below_cons (c : Host.Cell) (m : Memory) (size : Nat) :
    Memory.below (c :: m) size = (decide (c.1 < size) && m.below size) := rfl

/-- A write inside BUF lists no address outside it. -/
theorem Memory.write_below (m : Memory) (x : Nat) (b : Byte) (size : Nat) (hx : x < size)
    (h : m.below size = true) : (m.write x b).below size = true := by
  induction m with
  | nil => simp [Memory.write, Memory.below, hx]
  | cons c m ih =>
    obtain ⟨a, d⟩ := c
    rw [Memory.below_cons, Bool.and_eq_true, decide_eq_true_eq] at h
    simp only [Memory.write]
    split
    · simp [Memory.below_cons, hx, h.1, h.2]
    · split
      · simp [Memory.below_cons, hx, h.2]
      · simp [Memory.below_cons, h.1, ih h.2]

theorem Memory.writeRange_below (m : Memory) (x : Nat) (bs : List Byte) (size : Nat) (hx : x + bs.length ≤ size)
    (h : m.below size = true) : (m.writeRange x bs).below size = true := by
  induction bs generalizing m x with
  | nil => exact h
  | cons b bs ih =>
    simp only [List.length_cons] at hx
    exact ih _ _ (by omega) (Memory.write_below m x b size (by omega) h)

/-! ### Tables -/

/-- What a field names: the slot of its number, or nothing for 5, 6 and 7. -/
theorem slotOf_eq_none (tsel : BitVec 3) : slotOf tsel = none ↔ slotLegal tsel = false := by
  revert tsel; decide

/-- The lazy build either was not due and changed nothing, or published the MagicTable. -/
theorem State.lazyBuild_cases (s : State) :
    (s.mtValid = true ∧ s.lazyBuild = s) ∨ (s.mtValid = false ∧ s.lazyBuild = s.build) := by
  unfold State.lazyBuild
  cases s.mtValid <;> simp

theorem State.lazyBuild_mtValid (s : State) : s.lazyBuild.mtValid = true := by
  rcases s.lazyBuild_cases with ⟨h, e⟩ | ⟨_, e⟩ <;> simp [e]
  exact h

/-- An entry of a magic slot. -/
theorem getD_magicSlot (f : Byte → Byte) {d : Nat} (h : d < 256) :
    (magicSlot f).getD d 0 = if d = 0 then 0 else f (BitVec.ofNat 8 d) := by
  rw [magicSlot, getD_map_range, if_pos h]

/-! ### The lowest zero lane -/

/-- The lane found is below W, holds 0, and no lane before it does. -/
theorem State.firstZeroLane_some (s : State) (r : VReg) (i : Nat) (h : s.firstZeroLane r = some i) :
    i < s.params.w ∧ s.lane r i = 0 ∧ ∀ j, j < i → s.lane r j ≠ 0 := by
  rw [State.firstZeroLane, List.find?_range_eq_some] at h
  obtain ⟨h1, h2, h3⟩ := h
  refine ⟨by simpa using h2, by simpa using h1, fun j hj => by simpa using h3 j hj⟩

/-- None is found exactly when every lane is nonzero. -/
theorem State.firstZeroLane_none (s : State) (r : VReg) :
    s.firstZeroLane r = none ↔ ∀ i, i < s.params.w → s.lane r i ≠ 0 := by
  simp [State.firstZeroLane, List.find?_eq_none]

/-! ### STATUS -/

/-- What a host write of STATUS does to HALTED, ERRCODE and DZ (R34). -/
theorem State.writeStatus_flags (s : State) (x : Word) :
    (s.writeStatus x).halted = (s.halted && !x.getLsbD 1) ∧
    (s.writeStatus x).errCode = (if x.getLsbD 1 && s.halted then .noError else s.errCode) ∧
    (s.writeStatus x).dz = (s.dz && !x.getLsbD 2) := by
  unfold State.writeStatus
  cases h1 : x.getLsbD 1 <;> cases h2 : x.getLsbD 2 <;> cases h3 : s.halted <;> simp [h3]

end Sys2Proof.Machine
end

