-- ==== Sys2Proof/Laws/Frames.lean ====
section
/-! SUPPORT. The shared operations in the terms of Safety: what completing a write of V or K leaves unchanged, what error entry
is, and what a lazy build is. -/

namespace Sys2Proof.Machine

open Sys2Proof Sys2Proof.Safety

theorem State.complete_completed (s t : State) (h : HostKept s t) (hc : t.cmdcnt = s.cmdcnt)
    (hh : t.halted = s.halted) (he : t.errCode = s.errCode) (h1 : t.erridx = s.erridx)
    (h2 : t.errcmd = s.errcmd) (h3 : t.errinfo = s.errinfo) : Completed s t.complete :=
  ⟨⟨h.params, h.pending, h.reply⟩, by simp [hc], hh, he, h1, h2, h3⟩

/-- Writing V[rd] and completing changes V[rd] and CMDCNT only. -/
theorem State.writeV_complete_only (s : State) (rd : VReg) (f : Nat → Byte) :
    OnlyWroteV rd s (s.writeV rd f).complete where
  toWroteV :=
    { toCompleted := State.complete_completed s _ ⟨rfl, rfl, rfl⟩ rfl rfl rfl rfl rfl rfl
      vs := fun r h => by
        have h' : rd.val ≠ r.val := fun e => h (Fin.ext e.symm)
        simp [Vector.getElem_set_ne _ _ h']
      ks := rfl
      user := rfl
      buf := fun _ => rfl }
  magic := ⟨rfl, rfl, rfl, rfl⟩
  dz := rfl
  draws := rfl

/-- The lanes a write of V[rd] leaves. -/
theorem State.writeV_complete_lanes (s : State) (rd : VReg) (f : Nat → Byte) (g : Nat → Nat)
    (h : ∀ i, i < s.params.w → (f i).toNat = g i) : LanesAre (s.writeV rd f).complete rd s.params.w g := by
  refine ⟨by simp, fun i hi => ?_⟩
  have e : (s.writeV rd f).complete.laneCell rd i = { val := f i, written := true } :=
    State.laneCell_writeV_same s rd f hi
  simp [State.lane, e, h i hi]

/-- Writing K[kd] and completing changes K[kd] and CMDCNT only. -/
theorem State.writeK_complete_only (s : State) (kd : KReg) (f : Nat → Bool) :
    OnlyWroteK kd s (s.writeK kd f).complete where
  toCompleted := State.complete_completed s _ ⟨rfl, rfl, rfl⟩ rfl rfl rfl rfl rfl rfl
  vs := rfl
  ks := fun c h => by
    have h' : kd.val ≠ c.val := fun e => h (Fin.ext e.symm)
    simp [Vector.getElem_set_ne _ _ h']
  user := rfl
  buf := fun _ => rfl
  magic := ⟨rfl, rfl, rfl, rfl⟩
  dz := rfl
  draws := rfl

/-- The bits a write of K[kd] leaves. -/
theorem State.writeK_complete_bits (s : State) (kd : KReg) (f : Nat → Bool) :
    MaskIs (s.writeK kd f).complete kd s.params.w f := by
  refine ⟨by simp, fun i hi => ?_⟩
  have e : (s.writeK kd f).complete.maskCell kd i = { val := f i, written := true } :=
    State.maskCell_writeK_same s kd f hi
  simp [State.maskBit, e]

/-- Error entry is what R217 says. -/
theorem State.raiseError_entered (s : State) (c : Word) (e : ErrCode) (x : Word) :
    ErrorEntered c e x s (s.raiseError c e x) :=
  ⟨⟨rfl, rfl, rfl⟩, rfl, rfl, rfl, rfl, rfl, rfl, rfl, rfl, ⟨rfl, rfl, rfl, rfl⟩, rfl, rfl, rfl, rfl⟩

/-- The lazy build leaves the table built and otherwise as it was. -/
theorem State.lazyBuild_built (s : State) : LazilyBuilt s s.lazyBuild := by
  refine ⟨s.lazyBuild_mtValid, fun h => ?_, fun h => ?_⟩
  · rcases s.lazyBuild_cases with ⟨_, e⟩ | ⟨h', _⟩
    · rw [e]; exact ⟨rfl, rfl, rfl, rfl⟩
    · simp [h] at h'
  · rcases s.lazyBuild_cases with ⟨h', _⟩ | ⟨_, e⟩
    · simp [h] at h'
    · rw [e]; exact ⟨rfl, rfl, rfl⟩

end Sys2Proof.Machine
end

