-- ==== Sys2Proof/Laws/PerInstr.lean ====
section
/-! SUPPORT. What holds of every command as syntax, one lemma per constructor: bits [31:26] of its word are the opcode
of its row (R81, R93). -/

namespace Sys2Proof.Laws

open Sys2Proof

/-- The opcode column of R93. -/
def opcodeOf : Instr → BitVec 6
  | .nop => 0x00
  | .build _ _ => 0x01
  | .lookup128 _ _ _ _ => 0x02
  | .highbitmask _ _ => 0x03
  | .blend _ _ _ _ => 0x04
  | .wtl _ _ _ => 0x05
  | .bitwidth _ _ => 0x06
  | .mulhi _ _ _ => 0x07
  | .vadd _ _ _ => 0x08
  | .vsub _ _ _ => 0x09
  | .vsrlv _ _ _ => 0x0A
  | .quotient _ _ _ => 0x0B
  | .vsplat _ _ => 0x0C
  | .vld _ _ => 0x0D
  | .vst _ _ => 0x0E
  | .tld _ => 0x0F

/-- The opcode field of the command's word is its row's opcode. -/
def EncodeOpcode.Statement (i : Instr) : Prop := opField (encode i) = opcodeOf i

theorem EncodeOpcode.nop : EncodeOpcode.Statement .nop := by
  refine BitVec.eq_of_getLsbD_eq fun i hi => ?_
  simp only [opField, encode, opcodeOf, BitVec.getLsbD_extractLsb', formatN_bit]
  interval_cases i <;> rfl

theorem EncodeOpcode.build (lo : BitVec 9) (hi : BitVec 9) : EncodeOpcode.Statement (.build lo hi) := by
  refine BitVec.eq_of_getLsbD_eq fun i hi => ?_
  simp only [opField, encode, opcodeOf, BitVec.getLsbD_extractLsb', formatB_bit]
  interval_cases i <;> rfl

theorem EncodeOpcode.lookup128 (rd : VReg) (ra : VReg) (tsel : BitVec 3) (half : Half) : EncodeOpcode.Statement (.lookup128 rd ra tsel half) := by
  refine BitVec.eq_of_getLsbD_eq fun i hi => ?_
  simp only [opField, encode, opcodeOf, BitVec.getLsbD_extractLsb', formatRT_bit]
  interval_cases i <;> rfl

theorem EncodeOpcode.highbitmask (kd : KReg) (ra : VReg) : EncodeOpcode.Statement (.highbitmask kd ra) := by
  refine BitVec.eq_of_getLsbD_eq fun i hi => ?_
  simp only [opField, encode, opcodeOf, BitVec.getLsbD_extractLsb', formatRK_bit]
  interval_cases i <;> rfl

theorem EncodeOpcode.blend (rd : VReg) (ra : VReg) (rb : VReg) (kc : KReg) : EncodeOpcode.Statement (.blend rd ra rb kc) := by
  refine BitVec.eq_of_getLsbD_eq fun i hi => ?_
  simp only [opField, encode, opcodeOf, BitVec.getLsbD_extractLsb', formatRB_bit]
  interval_cases i <;> rfl

theorem EncodeOpcode.wtl (rd : VReg) (ra : VReg) (tsel : BitVec 3) : EncodeOpcode.Statement (.wtl rd ra tsel) := by
  refine BitVec.eq_of_getLsbD_eq fun i hi => ?_
  simp only [opField, encode, opcodeOf, BitVec.getLsbD_extractLsb', formatRT_bit]
  interval_cases i <;> rfl

theorem EncodeOpcode.bitwidth (rd : VReg) (ra : VReg) : EncodeOpcode.Statement (.bitwidth rd ra) := by
  refine BitVec.eq_of_getLsbD_eq fun i hi => ?_
  simp only [opField, encode, opcodeOf, BitVec.getLsbD_extractLsb', formatR2_bit]
  interval_cases i <;> rfl

theorem EncodeOpcode.mulhi (rd : VReg) (ra : VReg) (rb : VReg) : EncodeOpcode.Statement (.mulhi rd ra rb) := by
  refine BitVec.eq_of_getLsbD_eq fun i hi => ?_
  simp only [opField, encode, opcodeOf, BitVec.getLsbD_extractLsb', formatR3_bit]
  interval_cases i <;> rfl

theorem EncodeOpcode.vadd (rd : VReg) (ra : VReg) (rb : VReg) : EncodeOpcode.Statement (.vadd rd ra rb) := by
  refine BitVec.eq_of_getLsbD_eq fun i hi => ?_
  simp only [opField, encode, opcodeOf, BitVec.getLsbD_extractLsb', formatR3_bit]
  interval_cases i <;> rfl

theorem EncodeOpcode.vsub (rd : VReg) (ra : VReg) (rb : VReg) : EncodeOpcode.Statement (.vsub rd ra rb) := by
  refine BitVec.eq_of_getLsbD_eq fun i hi => ?_
  simp only [opField, encode, opcodeOf, BitVec.getLsbD_extractLsb', formatR3_bit]
  interval_cases i <;> rfl

theorem EncodeOpcode.vsrlv (rd : VReg) (ra : VReg) (rb : VReg) : EncodeOpcode.Statement (.vsrlv rd ra rb) := by
  refine BitVec.eq_of_getLsbD_eq fun i hi => ?_
  simp only [opField, encode, opcodeOf, BitVec.getLsbD_extractLsb', formatR3_bit]
  interval_cases i <;> rfl

theorem EncodeOpcode.quotient (rd : VReg) (ra : VReg) (rb : VReg) : EncodeOpcode.Statement (.quotient rd ra rb) := by
  refine BitVec.eq_of_getLsbD_eq fun i hi => ?_
  simp only [opField, encode, opcodeOf, BitVec.getLsbD_extractLsb', formatR3_bit]
  interval_cases i <;> rfl

theorem EncodeOpcode.vsplat (rd : VReg) (imm8 : BitVec 8) : EncodeOpcode.Statement (.vsplat rd imm8) := by
  refine BitVec.eq_of_getLsbD_eq fun i hi => ?_
  simp only [opField, encode, opcodeOf, BitVec.getLsbD_extractLsb', formatI_bit]
  interval_cases i <;> rfl

theorem EncodeOpcode.vld (rd : VReg) (addr : BitVec 16) : EncodeOpcode.Statement (.vld rd addr) := by
  refine BitVec.eq_of_getLsbD_eq fun i hi => ?_
  simp only [opField, encode, opcodeOf, BitVec.getLsbD_extractLsb', formatM_bit]
  interval_cases i <;> rfl

theorem EncodeOpcode.vst (rs : VReg) (addr : BitVec 16) : EncodeOpcode.Statement (.vst rs addr) := by
  refine BitVec.eq_of_getLsbD_eq fun i hi => ?_
  simp only [opField, encode, opcodeOf, BitVec.getLsbD_extractLsb', formatM_bit]
  interval_cases i <;> rfl

theorem EncodeOpcode.tld (addr : BitVec 16) : EncodeOpcode.Statement (.tld addr) := by
  refine BitVec.eq_of_getLsbD_eq fun i hi => ?_
  simp only [opField, encode, opcodeOf, BitVec.getLsbD_extractLsb', formatM_bit]
  interval_cases i <;> rfl

end Sys2Proof.Laws
end

