-- ==== Sys2Proof/Tests/Slice0.lean ====
section
/-! SUPPORT. My own tests. Expected values are the spec's: the words of 30_encoding and 95_test_vectors, the vectors of
95_test_vectors §2, or a hand calculation from the rule named. Then one witness for each obligation that has hypotheses. -/

namespace Sys2Proof.Tests

open Sys2Proof Sys2Proof.Machine Sys2Proof.Safety

/-! ### WellFormed refuses each ill-formed form (R91, R96, R100) -/

theorem test_wellFormed_refuses_lookup128_slots_5_to_7 :
    (Instr.lookup128 1 0 5 .lo).wellFormed = false ∧ (Instr.lookup128 1 0 6 .hi).wellFormed = false ∧
      (Instr.lookup128 1 0 7 .lo).wellFormed = false ∧ (Instr.lookup128 1 0 4 .hi).wellFormed = true := by decide

theorem test_wellFormed_refuses_wtl_slots_5_to_7 :
    (Instr.wtl 1 0 5).wellFormed = false ∧ (Instr.wtl 1 0 6).wellFormed = false ∧
      (Instr.wtl 1 0 7).wellFormed = false ∧ (Instr.wtl 1 0 4).wellFormed = true := by decide

/-! ### Decoding: each word written field by field from the formats R82 to R90 -/

theorem test_decode_nop : decode 0b000000_00000000000000000000000000 = .ok .nop := by decide

theorem test_decode_build : decode 0b000001_00000000_000000001_011111111 = .ok (.build 1 255) := by decide

theorem test_decode_lookup128 :
    decode 0b000010_001_000_011_1_0000000000000000 = .ok (.lookup128 1 0 3 .hi) ∧
      decode 0b000010_110_101_100_0_0000000000000000 = .ok (.lookup128 6 5 4 .lo) := by decide

theorem test_decode_highbitmask : decode 0b000011_0_10_011_00000000000000000000 = .ok (.highbitmask 2 3) := by decide

theorem test_decode_blend : decode 0b000100_100_010_011_01_000000000000000 = .ok (.blend 4 2 3 1) := by decide

theorem test_decode_wtl : decode 0b000101_010_001_100_0_0000000000000000 = .ok (.wtl 2 1 4) := by decide

theorem test_decode_bitwidth : decode 0b000110_101_110_00000000000000000000 = .ok (.bitwidth 5 6) := by decide

theorem test_decode_mulhi : decode 0b000111_010_000_001_00000000000000000 = .ok (.mulhi 2 0 1) := by decide

theorem test_decode_vadd : decode 0b001000_011_111_001_00000000000000000 = .ok (.vadd 3 7 1) := by decide

theorem test_decode_vsub : decode 0b001001_010_000_011_00000000000000000 = .ok (.vsub 2 0 3) := by decide

theorem test_decode_vsrlv : decode 0b001010_010_100_101_00000000000000000 = .ok (.vsrlv 2 4 5) := by decide

theorem test_decode_quotient : decode 0b001011_110_000_001_00000000000000000 = .ok (.quotient 6 0 1) := by decide

theorem test_decode_vsplat : decode 0b001100_011_000000000000000_00001000 = .ok (.vsplat 3 8) := by decide

theorem test_decode_vld : decode 0b001101_011_0000000_0000111111000001 = .ok (.vld 3 0x0FC1) := by decide

theorem test_decode_vst : decode 0b001110_111_0000000_0000111111000000 = .ok (.vst 7 0x0FC0) := by decide

theorem test_decode_tld : decode 0b001111_000_0000000_0000111100000000 = .ok (.tld 0x0F00) := by decide

/-- 95_test_vectors §2.2, §2.6, §2.8, §2.9 and R95's examples: words that are no command. -/
theorem test_decode_refuses :
    decode 0x40000000 = .error .reservedOpcode ∧ decode 0xFC000000 = .error .reservedOpcode ∧
      decode 0x00000001 = .error .mustBeZero ∧ decode 0x0A000001 = .error .mustBeZero ∧
      decode 0x0E000000 = .error .mustBeZero ∧ decode 0x2C000001 = .error .mustBeZero ∧
      decode 0x30400000 = .error .mustBeZero ∧ decode 0x34010FC1 = .error .mustBeZero ∧
      decode 0x14010000 = .error .mustBeZero ∧ decode 0x3C800000 = .error .mustBeZero := by decide

/-- The words of program P2 of 95_test_vectors come out of the encoder. -/
theorem test_encode_program_p2 :
    encode (.wtl 3 1 0) = 0x15900000 ∧ encode (.wtl 4 1 1) = 0x16120000 ∧ encode (.mulhi 3 3 0) = 0x1DB00000 ∧
      encode (.vsub 2 0 3) = 0x25060000 ∧ encode (.vsrlv 2 2 4) = 0x29280000 ∧ encode (.vadd 2 3 2) = 0x21340000 ∧
      encode (.vst 2 0x180) = 0x39000180 ∧ encode (.quotient 6 0 1) = 0x2F020000 := by decide

theorem test_decodeTableWord :
    decodeTableWord 32 0x12268000 = some (.blend 4 2 3 1) ∧ decodeTableWord 32 0x40000000 = none := by decide

/-! ### Small states -/

/-- A block with 16 lanes right after reset. -/
def small (policy : Div0Policy) (size : Nat) : State :=
  State.resetWith { lanes := .w16, policy := policy, bufSize := size }

/-- A LENIENT block with 16 lanes and 256 bytes of BUF. -/
def lenient : State := small .lenient 256

/-- A STRICT block with 16 lanes and 256 bytes of BUF. -/
def strict : State := small .strict 256

/-- `s` with V[r] written: the listed lanes, then `rest` in every other lane. -/
def put (s : State) (r : VReg) (lanes : List Byte) (rest : Byte := 0) : State :=
  s.writeV r fun i => lanes.getD i rest

/-- `s` with BUF[x], BUF[x+1], ... written. -/
def fill (s : State) (x : Nat) (bytes : List Byte) : State := { s with buf := s.buf.writeRange x bytes }

/-- The state a command leaves, if it answers one. -/
def after (i : Instr) (s : State) : Option State :=
  match exec i s with
  | .next t => some t
  | _ => none

/-- The first `n` lanes of V[r] after a command. -/
def lanesAfter (i : Instr) (s : State) (r : VReg) (n : Nat) : Option (List Byte) :=
  (after i s).map fun t => (List.range n).map (t.lane r)

/-- STATUS, CMDCNT, ERRIDX, ERRCMD and ERRINFO after a command. -/
def reportAfter (i : Instr) (s : State) : Option (Word × Word × Word × Word × Word) :=
  (after i s).map fun t => (t.statusWord, t.cmdcnt, t.erridx, t.errcmd, t.errinfo)

/-- The state a step leaves, if it answers one. -/
def stepped (s : State) : Option State :=
  match step s with
  | .next t => some t
  | _ => none

/-! ### One command on a small state -/

/-- R185's worked example: CMDCNT 5 becomes 6. -/
theorem test_nop_counts : exec .nop { lenient with cmdcnt := 5 } = .next { lenient with cmdcnt := 6 } := rfl

/-- R117's worked example and the vectors of 95_test_vectors §2.1. -/
theorem test_build_publishes :
    (after (.build 1 255) lenient).map (fun t =>
      (t.statusWord, [0, 1, 3, 129, 255].map (t.tableEntry .m), [0, 1, 3, 129, 255].map (t.tableEntry .sh1),
        [0, 1, 3, 129, 255].map (t.tableEntry .sh2))) =
      some (1, [0, 0, 86, 253, 2], [0, 0, 1, 1, 1], [0, 0, 1, 7, 7]) := by decide +kernel

/-- 95_test_vectors §2.1: STATUS, CMDCNT and ERRINFO of each rejected request. -/
theorem test_build_checks :
    [Instr.build 0 255, .build 1 256, .build 300 300, .build 5 3, .build 1 100].map (fun i => reportAfter i lenient) =
      [some (0x12, 1, 0, 0x040000FF, 0), some (0x12, 1, 0, 0x04000300, 256), some (0x12, 1, 0, 0x0402592C, 300),
        some (0x32, 1, 0, 0x04000A03, 0), some (0x32, 1, 0, 0x04000264, 0)] := by decide +kernel

/-- The index vector of 95_test_vectors §2.2 in V[0]. -/
def indices : State := put lenient 0 [0, 5, 133, 127, 128, 129, 255, 1, 129]

theorem test_lookup128_rom :
    lanesAfter (.lookup128 1 0 3 .lo) indices 1 9 = some [0, 3, 3, 7, 0, 1, 7, 1, 1] ∧
      lanesAfter (.lookup128 2 0 3 .hi) indices 2 9 = some [8, 8, 8, 8, 8, 8, 8, 8, 8] := by decide +kernel

theorem test_lookup128_magic_builds :
    lanesAfter (.lookup128 3 0 0 .hi) indices 3 9 = some [0, 237, 237, 2, 0, 253, 2, 253, 253] ∧
      reportAfter (.lookup128 3 0 0 .hi) indices = some (1, 1, 0, 0, 0) := by decide +kernel

theorem test_highbitmask :
    (after (.highbitmask 1 0) indices).map (fun t => (List.range 9).map (t.maskBit 1)) =
      some [false, false, true, false, true, true, true, false, true] := by decide +kernel

/-- 95_test_vectors §2.3. -/
theorem test_blend :
    lanesAfter (.blend 5 0 7 3)
        ((put (put lenient 0 [10, 20, 30, 40]) 7 [255, 255, 255, 255]).writeK 3 fun i => i % 2 == 1) 5 4 =
      some [10, 255, 30, 255] := by decide +kernel

theorem test_wtl_magic :
    lanesAfter (.wtl 5 0 2) indices 5 9 = some [0, 2, 7, 6, 6, 7, 7, 0, 7] := by decide +kernel

/-- 95_test_vectors §2.2: STATUS 0x32 for slot 7. -/
theorem test_wtl_reserved_slot : reportAfter (.wtl 0 0 7) indices = some (0x32, 1, 0, 0x140E0000, 0) := by
  decide +kernel

/-- 95_test_vectors §2.4, in place. -/
theorem test_bitwidth :
    lanesAfter (.bitwidth 0 0) (put lenient 0 [0, 1, 2, 3, 4, 7, 8, 15, 16, 31, 32, 63, 64, 127, 128, 255]) 0 16 =
      some [0, 1, 2, 2, 3, 3, 4, 4, 5, 5, 6, 6, 7, 7, 8, 8] := by decide +kernel

/-- 95_test_vectors §2.5. -/
theorem test_mulhi :
    lanesAfter (.mulhi 2 0 1) (put (put lenient 0 [255, 0, 128, 1, 16, 253, 86, 2]) 1
        [255, 200, 2, 255, 16, 129, 255, 128]) 2 8 = some [254, 0, 1, 0, 1, 127, 85, 1] := by decide +kernel

/-- 95_test_vectors §2.6. -/
theorem test_vadd :
    lanesAfter (.vadd 2 0 1) (put (put lenient 0 [200, 255, 0, 128, 3]) 1 [100, 1, 0, 128, 252]) 2 5 =
      some [44, 0, 0, 0, 255] := by decide +kernel

/-- 95_test_vectors §2.6. -/
theorem test_vsub :
    lanesAfter (.vsub 2 0 1) (put (put lenient 0 [3, 0, 9, 200, 0]) 1 [5, 255, 9, 28, 1]) 2 5 =
      some [254, 1, 0, 172, 255] := by decide +kernel

/-- 95_test_vectors §2.6. -/
theorem test_vsrlv :
    lanesAfter (.vsrlv 2 0 1) (put (put lenient 0 [255, 255, 1, 172, 128, 200, 255]) 1 [7, 8, 255, 1, 0, 3, 9]) 2 7 =
      some [1, 0, 0, 86, 128, 25, 0] := by decide +kernel

/-- 95_test_vectors §2.7: sixteen of its rows at once, the zero divisors under LENIENT among them, with DZ set. -/
theorem test_quotient_lenient :
    (after (.quotient 2 0 1)
        (put (put lenient 0 [255, 255, 255, 254, 255, 128, 171, 170, 100, 99, 17, 16, 253, 254, 3, 200]) 1
          [1, 3, 85, 127, 129, 129, 171, 171, 10, 10, 17, 17, 254, 255, 3, 0])).map
      (fun t => ((List.range 16).map (t.lane 2), t.statusWord)) =
      some ([255, 85, 3, 2, 1, 0, 1, 0, 10, 9, 1, 0, 0, 0, 1, 200], 5) := by decide +kernel

/-- 95_test_vectors §2.7: STRICT with d = 0 only in lane 5. -/
theorem test_quotient_strict :
    reportAfter (.quotient 2 0 1) (put (put strict 0 [] 9) 1 [1, 2, 3, 4, 5, 0] 7) =
      some (0x22, 1, 0, 0x2D020000, 5) := by decide +kernel

/-- R186's worked example. -/
theorem test_vsplat : lanesAfter (.vsplat 3 8) lenient 3 16 = some (List.replicate 16 8) := by decide +kernel

/-- R190's worked example, at the highest legal address of a 256-byte BUF; the bytes not written stay unwritten lanes. -/
theorem test_vld :
    (after (.vld 1 240) (fill lenient 240 [3, 7, 1, 2])).map
      (fun t => ((List.range 4).map (t.lane 1), (List.range 16).map fun i => (t.laneCell 1 i).written)) =
      some ([3, 7, 1, 2], [true, true, true, true, false, false, false, false, false, false, false, false, false, false,
        false, false]) := by decide +kernel

/-- 95_test_vectors §2.8 for W = 16 and BUF_SIZE = 256: one past the highest legal address. -/
theorem test_vld_out_of_range :
    reportAfter (.vld 0 241) lenient = some (0x42, 1, 0, 0x340000F1, 241) := by decide +kernel

/-- R191: lane i goes to BUF[addr + i] and nothing around it changes. -/
theorem test_vst :
    (after (.vst 7 16) (put (fill lenient 15 [9]) 7 [1, 2, 3] 255)).map
      (fun t => [15, 16, 17, 18, 31, 32].map t.buf.read) =
      some [some 9, some 1, some 2, some 3, some 255, none] := by decide +kernel

theorem test_vst_out_of_range :
    (after (.vst 7 241) (put lenient 7 [] 255)).map (fun t => (t.statusWord, t.errinfo, t.buf)) =
      some (0x42, 241, []) := by decide +kernel

/-- R192's worked example, entries 0, 127, 128 and 255. -/
theorem test_tld :
    (after (.tld 0) (fill lenient 0 ((List.range 256).map fun j => 255#8 - BitVec.ofNat 8 j))).map
      (fun t => [0, 127, 128, 255].map t.userCell) =
      some [⟨255, true⟩, ⟨128, true⟩, ⟨127, true⟩, ⟨0, true⟩] := by decide +kernel

theorem test_tld_out_of_range :
    reportAfter (.tld 1) lenient = some (0x42, 1, 0, 0x3C000001, 1) := by decide +kernel

/-! ### The host's side -/

/-- R33 by hand for the defaults: BUFM1 = 0xFFF, POLICY = 1, LOG2W = 6, VERSION = 1. -/
theorem test_id_default : State.reset.regValue 0x00 = 0x0FFF1601 := by decide

/-- P4 of 95_test_vectors, step 1: a command while halted is discarded. -/
theorem test_discard_while_halted :
    issue 0x30000001 (strict.raiseError 0x040000FF .invalidDivisor 0) =
      .next (strict.raiseError 0x040000FF .invalidDivisor 0) := rfl

/-- P4 of 95_test_vectors, step 2: STATUS reads 0 and the error registers keep their values. -/
theorem test_status_clears_halted :
    (hostRegWrite 0x04 2 (strict.raiseError 0x040000FF .invalidDivisor 0)) =
      .next { strict with cmdcnt := 1, errcmd := 0x040000FF } := rfl

/-- 95_test_vectors §2.9: opcode 0x10 from reset. -/
theorem test_reserved_opcode_from_reset :
    issue 0x40000000 State.reset =
      .next { State.reset with errcmd := 0x40000000, errCode := .illegalCommand, halted := true, cmdcnt := 1 } := rfl

/-- The command word placed by `withFetchWord` is run by the next step. -/
theorem test_withFetchWord_runs :
    step (State.reset.withFetchWord 32 0) = .next { State.reset with cmdcnt := 1 } := rfl

/-- `lenient` with the host about to issue `l`. -/
def asking (l : List HostTxn) : State := { lenient with pending := l }

/-- R38: BLEND with an unwritten mask reads an unwritten cell, VSPLAT reads none. -/
theorem test_nextReadsUnwritten :
    nextReadsUnwritten (asking [.regWrite 0x18 0x12268000]) = true ∧
      nextReadsUnwritten (asking [.regWrite 0x18 0x31800008]) = false := by decide +kernel

/-- The guarded step faults there. -/
theorem test_guardedStep : guardedStep (asking [.regWrite 0x18 0x12268000]) = .fault .unwrittenRead := by
  rw [guardedStep, test_nextReadsUnwritten.1]
  rfl

/-! ### Witnesses: for each obligation with hypotheses, a concrete state and operands that meet them -/

/-- EveryWordIsOneCommandOrIllegal and ReservedOpcodesRaiseIllegalCommand: the boundary words, on a block not halted. -/
theorem test_witness_words :
    State.reset.halted = false ∧ decode 0 = .ok .nop ∧ decode 1 = .error .mustBeZero ∧
      (opField 0x40000000).toNat = 0x10 ∧ (opField 0xFC000000).toNat = 0x3F := ⟨rfl, by decide, by decide, rfl, rfl⟩

/-- A word of opcode `op` with a 1 in one of the bits of `zeros`. -/
def reservedWord (op : BitVec 6) (zeros w : Word) : Bool := opField w == op && w &&& zeros != 0

/-- ReservedBitsRaise, in the sixteen command statements: a word of each opcode with its highest or its lowest zero bit
set. -/
theorem test_witness_reserved_bits :
    (reservedWord 0x00 0x03FFFFFF 0x00000001 && reservedWord 0x01 0x03FC0000 0x04040000 &&
      reservedWord 0x02 0x0000FFFF 0x08008000 && reservedWord 0x03 0x020FFFFF 0x0E000000 &&
      reservedWord 0x04 0x00007FFF 0x10004000 && reservedWord 0x05 0x0001FFFF 0x14010000 &&
      reservedWord 0x06 0x000FFFFF 0x18080000 && reservedWord 0x07 0x0001FFFF 0x1C010000 &&
      reservedWord 0x08 0x0001FFFF 0x20000001 && reservedWord 0x09 0x0001FFFF 0x24010000 &&
      reservedWord 0x0A 0x0001FFFF 0x28000001 && reservedWord 0x0B 0x0001FFFF 0x2C000001 &&
      reservedWord 0x0C 0x007FFF00 0x30000100 && reservedWord 0x0D 0x007F0000 0x34400000 &&
      reservedWord 0x0E 0x007F0000 0x38010000 && reservedWord 0x0F 0x03FF0000 0x3E000000) = true := by decide

/-- Lookup128ReadsTheTableHalf and WtlReadsTheWholeTable: a slot of each kind at its boundary, and a slot above 4. -/
theorem test_witness_slots :
    slotOf 0 = some .m ∧ slotOf 2 = some .sh2 ∧ slotOf 3 = some .bitWidth ∧ slotOf 4 = some .user ∧
      (5 : BitVec 3).toNat > 4 ∧ (2 : BitVec 3).toNat ≤ 2 ∧ ¬(3 : BitVec 3).toNat ≤ 2 := by decide

/-- BlendSelectsByMask's last clause: a written all-zero mask and a written ra beside an unwritten rb. -/
theorem test_witness_blend :
    let s := (put lenient 2 []).writeK 1 fun _ => false
    (∀ i, i < s.params.w → (s.maskCell 1 i).written = true ∧
      (s.laneCell (if s.maskBit 1 i = true then 3 else 2) i).written = true) ∧ (s.laneCell 3 0).written = false := by
  decide +kernel

/-- WtlReadsTheWholeTable's last clause: every lane selects entry 255 or entry 0 of USER, the only two written. -/
theorem test_witness_wtl_user :
    let s := { put lenient 0 [255] with user := Stored.mk 1 true :: List.replicate 254 (Stored.mk 0 false) ++ [Stored.mk 9 true] }
    (∀ i, i < s.params.w → (s.laneCell 0 i).written = true ∧
      (Slot.user = .user → (s.userCell (s.lane 0 i).toNat).written = true)) ∧ (s.userCell 1).written = false := by
  decide +kernel

/-- QuotientComputesOrRejects: a STRICT batch with its lowest zero in lane 5. -/
theorem test_witness_strict_zero :
    let s := put strict 1 [1, 2, 3, 4, 5, 0] 0
    s.params.policy = .strict ∧ 5 < s.params.w ∧ s.lane 1 5 = 0 ∧ ∀ j, j < 5 → s.lane 1 j ≠ 0 := by decide +kernel

/-- The STRICT batch without a zero lane: QuotientComputesOrRejects, QuotientIsFloorDivision. -/
theorem test_witness_strict_nonzero :
    let s := put strict 1 [255] 1
    s.params.policy = .strict ∧ (∀ i, i < s.params.w → s.lane 1 i ≠ 0) ∧ (s.mtValid = true → MagicPublished s) :=
  ⟨rfl, by decide +kernel, (fun h => by cases h)⟩

/-- QuotientIsFloorDivision and WtlGathersTheMagicTriple: a LENIENT block with its table built, lane 0 with divisor 3
and lane 1 with divisor 0. -/
theorem test_witness_lenient_built :
    let s := (put (put lenient 0 [10, 200]) 1 [3, 0]).build
    s.params.policy = .lenient ∧ s.mtValid = true ∧ MagicPublished s ∧ s.lane 1 0 ≠ 0 ∧ s.lane 1 1 = 0 :=
  ⟨rfl, rfl, ⟨rfl, rfl, rfl⟩, by decide +kernel, by decide +kernel⟩

/-- VldLoadsLanesOrRaisesBufferRange, VstStoresLanesOrRaisesBufferRange and TldLoadsTheUserTableOrRaisesBufferRange: the
highest address that fits and the next one; and LaterAccessesSeeEarlierWrites' addresses, first and last of the range. -/
theorem test_witness_ranges :
    lenient.fits 240 lenient.params.w = true ∧ ¬(240#16).toNat + lenient.params.w > lenient.params.bufSize ∧
      (241#16).toNat + lenient.params.w > lenient.params.bufSize ∧
      lenient.fits 0 256 = true ∧ (1#16).toNat + 256 > lenient.params.bufSize ∧
      (240#16).toNat ≤ (240#16).toNat ∧ (255#16).toNat < (240#16).toNat + lenient.params.w := by decide

/-- LaterAccessesSeeEarlierWrites, TLD then WTL: lane 0 selects entry 255, whose byte is written. -/
theorem test_witness_tld_wtl :
    let s := fill (put lenient 1 [255]) 255 [7]
    s.fits 0 256 = true ∧ 0 < s.params.w ∧ s.buf.read ((0#16).toNat + (s.lane 1 0).toNat) = some 7 := by decide +kernel

/-- The statements over a divisor or an index: the least and the greatest nonzero divisor, the greatest exponent. -/
theorem test_witness_divisors :
    (1 : Byte) ≠ 0 ∧ (255 : Byte) ≠ 0 ∧ (2 : Byte) ≠ 1 ∧ 7 ≤ 7 ∧ (255 : Byte).toNat < 2 ^ 8 ∧ (0 : Byte) ≤ 255 ∧
      (1 : Byte).toNat ≤ 2 ^ 0 := by decide

/-- QuotPrimExpansionAgreesWithQuotient: the registers of program P2 (95_test_vectors), a zero divisor in lane 3, and the
QUOTIENT that completes. -/
theorem test_witness_quot_prim :
    let s := put (put lenient 0 [7, 255, 0, 255]) 1 [2, 255, 17, 0] 3
    let u := ((s.quotientLanes 2 0 1).noteDz (s.firstZeroLane 1).isSome).complete
    ((2 : VReg) ≠ 3 ∧ (2 : VReg) ≠ 4 ∧ (2 : VReg) ≠ 5 ∧ (3 : VReg) ≠ 4 ∧ (3 : VReg) ≠ 5 ∧ (4 : VReg) ≠ 5 ∧
      (3 : VReg) ≠ 0 ∧ (4 : VReg) ≠ 0 ∧ (5 : VReg) ≠ 0 ∧ (3 : VReg) ≠ 1 ∧ (4 : VReg) ≠ 1 ∧ (5 : VReg) ≠ 1) ∧
      s.halted = false ∧ exec (.quotient 2 0 1) s = .next u ∧ Completed s u ∧
      (s.mtValid = true → MagicPublished s) ∧ 3 < s.params.w ∧ s.lane 1 3 = 0 :=
  ⟨by decide, rfl, rfl, ⟨⟨rfl, rfl, rfl⟩, rfl, rfl, rfl, rfl, rfl, rfl⟩, (fun h => by cases h), by decide,
    by decide +kernel⟩

/-- WtlPrimExpansionAgreesWithWtl and BitWidthFastPathAgrees: the boundary slots, and distinct registers. -/
theorem test_witness_wtl_prim :
    slotLegal 0 = true ∧ slotLegal 4 = true ∧ (2 : VReg) ≠ 1 ∧ (2 : VReg) ≠ 0 ∧ (1 : VReg) ≠ 0 := by decide

/-- The state QuotientIsPure and LanesAreIndependent start from: V[0] and V[1] written. -/
def pairA : State := put (put lenient 0 [10, 200]) 1 [3, 7] 1

/-- As `pairA` in V[4] and V[5], with other contents elsewhere and the table built. -/
def pairB : State := (put (put (put lenient 0 [99]) 4 [10, 200]) 5 [3, 7] 1).build

/-- QuotientIsPure: two blocks that differ elsewhere, with the same numerators and divisors in different registers. -/
theorem test_witness_pure :
    (pairA.mtValid = true → MagicPublished pairA) ∧ (pairB.mtValid = true → MagicPublished pairB) ∧
      pairA.params = pairB.params ∧
      (∀ i, i < pairA.params.w → pairA.lane 0 i = pairB.lane 4 i ∧ pairA.lane 1 i = pairB.lane 5 i) ∧
      exec (.quotient 2 0 1) pairA =
        .next ((pairA.quotientLanes 2 0 1).noteDz (pairA.firstZeroLane 1).isSome).complete ∧
      exec (.quotient 6 4 5) pairB =
        .next ((pairB.quotientLanes 6 4 5).noteDz (pairB.firstZeroLane 5).isSome).complete ∧
      pairA.halted = false ∧ pairB.halted = false ∧
      ((pairA.quotientLanes 2 0 1).noteDz (pairA.firstZeroLane 1).isSome).complete.halted = false :=
  ⟨(fun h => by cases h), fun _ => ⟨rfl, rfl, rfl⟩, rfl, by decide +kernel, rfl, rfl, rfl, rfl, rfl⟩

/-- LanesAreIndependent: two blocks that agree in lane 1 and differ in lane 0, both completing VADD. -/
theorem test_witness_lanes :
    let s := pairA
    let t := put pairA 0 [11, 200]
    s.params = t.params ∧ 1 < s.params.w ∧ s.mtValid = t.mtValid ∧ s.tblM = t.tblM ∧ s.tblSh1 = t.tblSh1 ∧
      s.tblSh2 = t.tblSh2 ∧ s.user = t.user ∧ s.buf = t.buf ∧ s.draws = t.draws ∧
      (∀ r : VReg, s.laneCell r 1 = t.laneCell r 1) ∧ (∀ c : KReg, s.maskCell c 1 = t.maskCell c 1) ∧
      s.lane 0 0 ≠ t.lane 0 0 ∧ s.halted = false ∧ t.halted = false ∧
      exec (.vadd 2 0 1) s = .next (s.mapLanes2 (fun a b => a + b) 2 0 1).complete ∧
      exec (.vadd 2 0 1) t = .next (t.mapLanes2 (fun a b => a + b) 2 0 1).complete ∧
      Completed s (s.mapLanes2 (fun a b => a + b) 2 0 1).complete ∧
      Completed t (t.mapLanes2 (fun a b => a + b) 2 0 1).complete :=
  ⟨rfl, by decide, rfl, rfl, rfl, rfl, rfl, rfl, rfl, by decide +kernel, by decide +kernel, by decide +kernel, rfl, rfl,
    rfl, rfl, ⟨⟨rfl, rfl, rfl⟩, rfl, rfl, rfl, rfl, rfl, rfl⟩, ⟨⟨rfl, rfl, rfl⟩, rfl, rfl, rfl, rfl, rfl, rfl⟩⟩

/-- ErrorCodesAndTheirCommands and CommandsWriteOnlyTheirListedState: each of the four errors, entered by a command of a
block that is not halted. -/
theorem test_witness_errors :
    lenient.halted = false ∧
      (∃ t, exec (.build 1 256) lenient = .next t ∧
        ErrorEntered (encode (.build 1 256)) .invalidDivisor 256 lenient t) ∧
      (∃ t, exec (.quotient 2 0 1) (put strict 1 [1, 0] 2) = .next t ∧
        ErrorEntered (encode (.quotient 2 0 1)) .divisionByZero 1 (put strict 1 [1, 0] 2) t) ∧
      (∃ t, exec (.wtl 0 0 5) lenient = .next t ∧
        ErrorEntered (encode (.wtl 0 0 5)) .illegalCommand 0 lenient t) ∧
      ∃ t, exec (.vld 0 241) lenient = .next t ∧ ErrorEntered (encode (.vld 0 241)) .bufferRange 241 lenient t :=
  ⟨rfl, ⟨_, rfl, State.raiseError_entered _ _ _ _⟩, ⟨_, rfl, State.raiseError_entered _ _ _ _⟩,
    ⟨_, rfl, State.raiseError_entered _ _ _ _⟩, ⟨_, rfl, State.raiseError_entered _ _ _ _⟩⟩

/-- LazyBuildRunsExactlyWhenNeeded: on a block that is not halted and whose table is not built, a LOOKUP128 of slot 2
leaves it not halted, and a STRICT QUOTIENT with a zero lane leaves it halted. -/
theorem test_witness_lazy :
    needsMagic (.lookup128 1 0 2 .lo) = true ∧ needsMagic (.lookup128 1 0 3 .lo) = false ∧
      needsMagic (.quotient 2 0 1) = true ∧ lenient.mtValid = false ∧ lenient.halted = false ∧
      (after (.lookup128 1 0 2 .lo) lenient).map (fun t => (t.halted, t.mtValid)) = some (false, true) ∧
      (put strict 1 [1, 0] 2).halted = false ∧ (put strict 1 [1, 0] 2).mtValid = false ∧
      (after (.quotient 2 0 1) (put strict 1 [1, 0] 2)).map (fun t => (t.halted, t.mtValid)) = some (true, false) := by
  decide +kernel

/-- RebuildChangesNoEntry and QuotientStepsDoNotWrap: a built table. -/
theorem test_witness_built : lenient.build.mtValid = true ∧ MagicPublished lenient.build := ⟨rfl, rfl, rfl, rfl⟩

/-- StepRunsTheDecodedCommand: a state for each kind of transaction, the register writes that are ignored next to
STATUS and CMD, and the last address of BUF beside the first one past it. -/
theorem test_witness_step :
    (∀ x ∈ [HostTxn.regRead 0x08, .regWrite 0x18 0x2D020000, .regWrite 0x04 6, .regWrite 0x08 1, .regWrite 0x1C 1,
      .bufRead 255, .bufRead 256, .bufWrite 255 7, .bufWrite 256 7, .reset],
      (asking [x, .reset]).pending = x :: [.reset]) ∧
      (asking [.regWrite 0x18 0x2D020000]).halted = false ∧ decode 0x2D020000 = .ok (.quotient 2 0 1) ∧
      0x08 ≠ 0x04 ∧ 0x08 ≠ 0x18 ∧ 0x1C ≠ 0x04 ∧ 0x1C ≠ 0x18 ∧
      (255#16).toNat < lenient.params.bufSize ∧ lenient.params.bufSize ≤ (256#16).toNat ∧
      (fill (asking [.bufRead 255]) 255 [7]).buf.read (255#16).toNat = some 7 :=
  ⟨fun _ _ => rfl, rfl, by decide, by decide, by decide, by decide, by decide, by decide, by decide, rfl⟩

/-- HaltedBlockDiscardsCommands and ErrorReturnResumesTheBlock: a halted block, the host's STATUS write and next
command, and a readable byte at the last address. -/
theorem test_witness_halted :
    let s := fill ((asking [.regWrite 0x04 2, .regWrite 0x18 0]).raiseError 1 .illegalCommand 0) 255 [7]
    s.halted = true ∧ (2 : Word).getLsbD 1 = true ∧ (2 : Word).getLsbD 2 = false ∧ decode 0 = .ok .nop ∧
      s.pending = .regWrite 0x04 2 :: .regWrite 0x18 0 :: [] ∧ (255#16).toNat < s.params.bufSize ∧
      s.buf.read (255#16).toNat = some 7 ∧
      (asking [.regWrite 0x18 0]).pending = .regWrite 0x18 0 :: [] :=
  ⟨rfl, rfl, rfl, by decide, rfl, by decide, rfl, rfl⟩

/-- RegisterMapReadsAndIgnoredWrites, IdFieldsReportTheParameters and BufferPortReachesOneByte at their boundaries. -/
theorem test_witness_ports :
    (0x1C ≤ 0x1C ∨ 0x1C % 4 ≠ 0) ∧ (0x1C ≤ 0x05 ∨ 0x05 % 4 ≠ 0) ∧ 0x00 ≠ 0x04 ∧ 0x00 ≠ 0x18 ∧ 0x04 ≠ 0x00 ∧
      (small .strict 256).params.legal = true ∧ (small .lenient 65536).params.legal = true ∧
      (255#16).toNat < lenient.params.bufSize ∧ lenient.params.bufSize ≤ (256#16).toNat ∧
      (fill lenient 255 [7]).buf.read (255#16).toNat = some 7 := by decide

/-- DzIsSetByLenientQuotientAndClearedByTheHost: a step that sets DZ, one that clears it by STATUS, one by Reset. -/
theorem test_witness_dz :
    ((stepped { put lenient 1 [0] with pending := [.regWrite 0x18 0x2D020000] }).map fun t => (lenient.dz, t.dz)) =
        some (false, true) ∧
      ((stepped { lenient with dz := true, pending := [.regWrite 0x04 4] }).map fun t => t.dz) = some false ∧
      ((stepped { lenient with dz := true, pending := [.reset] }).map fun t => t.dz) = some false ∧
      (4 : Word).getLsbD 2 = true ∧ decode 0x2D020000 = .ok (.quotient 2 0 1) ∧ lenient.params.policy = .lenient ∧
      0 < (put lenient 1 [0]).params.w ∧ (put lenient 1 [0]).lane 1 0 = 0 := by decide +kernel

/-- ErrorRegistersKeepTheLastError: an error of a command issued at index 5 to a block that is not halted, and a step. -/
theorem test_witness_error_registers :
    let s := { lenient with cmdcnt := 5 }
    s.halted = false ∧ issue 0xFC000000 s = .next (s.raiseError 0xFC000000 .illegalCommand 0) ∧
      (s.raiseError 0xFC000000 .illegalCommand 0).halted = true ∧ step s = .next s := ⟨rfl, rfl, rfl, rfl⟩

/-- ResetLeavesTheStatedState: a Reset of a block that has run. -/
theorem test_witness_reset :
    let s := { pairB with pending := [.reset], errinfo := 5 }
    s.pending = .reset :: [] ∧ step s = .next lenient := ⟨rfl, rfl⟩

/-- StepAlwaysAnswersANextState: an idle host and one with a transaction to come. -/
theorem test_witness_idle : lenient.pending = [] ∧ (asking [.reset]).pending ≠ [] := ⟨rfl, by simp [asking]⟩

/-- The state of the invariant's witness: table built, BUF written at its last address, the host about to store. -/
def running : State := { (fill lenient 255 [7]).build with pending := [.regWrite 0x18 0x3A0000F0] }

/-- EveryStepKeepsTheInvariant, PublishedMagicTableNeverChanges and MagicTablePublicationIsAtomic: a state with the
invariant, MT_VALID = 1 and a VST next. -/
theorem test_witness_invariant :
    Invariant running ∧ running.mtValid = true ∧ (∀ rest, running.pending ≠ .reset :: rest) ∧
      ∃ t, step running = .next t ∧ t.buf.read 255 = some 0 := by
  refine ⟨⟨rfl, by decide +kernel, by decide +kernel, by decide +kernel, fun _ => ⟨rfl, rfl, rfl⟩, rfl, rfl, by decide,
    (fun h => by cases h)⟩, rfl, (fun rest h => by cases h), _, rfl, by decide +kernel⟩

/-- UnwrittenValuesReachNothingWritten: two blocks that hold different values in the unwritten V[3], and a guarded step
that goes on. -/
theorem test_witness_unwritten :
    let s := asking [.regWrite 0x18 0x31000008]
    let t := s.writeCells 3 fun _ => ⟨7, false⟩
    AgreeOnWritten s t ∧ s.lane 3 0 ≠ t.lane 3 0 ∧ ∃ s', guardedStep s = .next s' := by
  refine ⟨⟨⟨rfl, rfl, rfl⟩, by unfold CellsAgree; decide +kernel, fun _ _ _ => ⟨rfl, fun _ => rfl⟩,
    fun _ _ => ⟨rfl, fun _ => rfl⟩, rfl, fun _ => ⟨rfl, rfl, rfl⟩, rfl, rfl, rfl, rfl, rfl, rfl, rfl, rfl, rfl⟩, by decide +kernel, _, rfl⟩

end Sys2Proof.Tests
end

section
/-! A word that decodes is the word of its command (R93, R103): each format's word is put together again from the
fields the decoder takes out of it. -/

namespace Sys2Proof

/-- The bits of a matched row that its mask covers are those of the row's match value (R93). -/
theorem extract_of_match {w mask value : Word} (h : w &&& mask = value) (lsb n : Nat)
    (hm : mask.extractLsb' lsb n = BitVec.allOnes n) : w.extractLsb' lsb n = value.extractLsb' lsb n := by
  rw [← h, BitVec.extractLsb'_and, hm, BitVec.and_allOnes]

/-- Two neighbouring fields of a word, joined, are one field of it. -/
theorem extract_join {w : Word} {a b m n : Nat} {p : BitVec m} {q : BitVec n} (hp : w.extractLsb' a m = p)
    (hq : w.extractLsb' b n = q) (h : a = b + n) : w.extractLsb' b (m + n) = p ++ q := by
  rw [← hp, ← hq, BitVec.extractLsb'_append_extractLsb'_eq_extractLsb' h]

theorem extract_halfField (w : Word) : w.extractLsb' 16 1 = halfBit (halfField w) := by
  refine BitVec.eq_of_getLsbD_eq fun i hi => ?_
  obtain rfl : i = 0 := by omega
  rw [halfField, BitVec.getLsbD_extractLsb']
  cases w.getLsbD 16 <;> rfl

/-- A register field of the word, in the form the formats write it (R91). -/
theorem extract_vregField (w : Word) (lsb : Nat) : w.extractLsb' lsb 3 = vregBits (vregField w lsb) := rfl

theorem extract_kregField (w : Word) (lsb : Nat) : w.extractLsb' lsb 2 = kregBits (kregField w lsb) := rfl

theorem extract_all {w x : Word} (h : w.extractLsb' 0 32 = x) : x = w :=
  h.symm.trans BitVec.extractLsb'_eq_self

/-! ### One lemma per format: the fields of a word with the format's zero bits give the word (R82 to R90) -/

section

variable {w : Word} {op : BitVec 6} (hop : w.extractLsb' 26 6 = op)
include hop

theorem formatN_fields (hz : w.extractLsb' 0 26 = 0#26) : formatN op = w :=
  extract_all (extract_join hop hz rfl)

theorem formatB_fields (hz : w.extractLsb' 18 8 = 0#8) :
    formatB op (w.extractLsb' 9 9) (w.extractLsb' 0 9) = w :=
  have hlo := extract_join (extract_join hop hz rfl) (q := w.extractLsb' 9 9) rfl rfl
  extract_all (extract_join hlo (q := w.extractLsb' 0 9) rfl rfl)

theorem formatRT_fields {half : BitVec 1} (hh : w.extractLsb' 16 1 = half) (hz : w.extractLsb' 0 16 = 0#16) :
    formatRT op (vregField w 23) (vregField w 20) (tselField w) half = w :=
  have hrd := extract_join hop (extract_vregField w 23) rfl
  have hra := extract_join hrd (extract_vregField w 20) rfl
  have hts := extract_join hra (q := tselField w) rfl rfl
  extract_all (extract_join (extract_join hts hh rfl) hz rfl)

theorem formatRK_fields (hz1 : w.extractLsb' 25 1 = 0#1) (hz : w.extractLsb' 0 20 = 0#20) :
    formatRK op (kregField w 23) (vregField w 20) = w :=
  have hkd := extract_join (extract_join hop hz1 rfl) (extract_kregField w 23) rfl
  have hra := extract_join hkd (extract_vregField w 20) rfl
  extract_all (extract_join hra hz rfl)

theorem formatRB_fields (hz : w.extractLsb' 0 15 = 0#15) :
    formatRB op (vregField w 23) (vregField w 20) (vregField w 17) (kregField w 15) = w :=
  have hrd := extract_join hop (extract_vregField w 23) rfl
  have hra := extract_join hrd (extract_vregField w 20) rfl
  have hrb := extract_join hra (extract_vregField w 17) rfl
  have hkc := extract_join hrb (extract_kregField w 15) rfl
  extract_all (extract_join hkc hz rfl)

theorem formatR2_fields (hz : w.extractLsb' 0 20 = 0#20) :
    formatR2 op (vregField w 23) (vregField w 20) = w :=
  have hrd := extract_join hop (extract_vregField w 23) rfl
  have hra := extract_join hrd (extract_vregField w 20) rfl
  extract_all (extract_join hra hz rfl)

theorem formatR3_fields (hz : w.extractLsb' 0 17 = 0#17) :
    formatR3 op (vregField w 23) (vregField w 20) (vregField w 17) = w :=
  have hrd := extract_join hop (extract_vregField w 23) rfl
  have hra := extract_join hrd (extract_vregField w 20) rfl
  have hrb := extract_join hra (extract_vregField w 17) rfl
  extract_all (extract_join hrb hz rfl)

theorem formatI_fields (hz : w.extractLsb' 8 15 = 0#15) :
    formatI op (vregField w 23) (w.extractLsb' 0 8) = w :=
  have hrd := extract_join hop (extract_vregField w 23) rfl
  extract_all (extract_join (extract_join hrd hz rfl) (q := w.extractLsb' 0 8) rfl rfl)

theorem formatM_fields {r : VReg} (hr : w.extractLsb' 23 3 = vregBits r) (hz : w.extractLsb' 16 7 = 0#7) :
    formatM op r (addrField w) = w :=
  have hr := extract_join hop hr rfl
  extract_all (extract_join (extract_join hr hz rfl) (q := addrField w) rfl rfl)

end

/-! ### The word of a decoded command -/

/-- A row that answers a command answers its own, whose word is `w` as soon as the fixed bits give it. -/
theorem encode_of_matchRow {w mask value : Word} {i j : Instr} (h : matchRow w mask value i = .ok j)
    (hw : w &&& mask = value → encode i = w) : encode j = w := by
  obtain ⟨hm, rfl⟩ := (matchRow_eq_ok w mask value i j).1 h
  exact hw hm

/-- A word that decodes is the word of the command it decodes to (R103). -/
theorem encode_of_decode {w : Word} {i : Instr} (h : decode w = .ok i) : encode i = w := by
  unfold decode at h
  split at h
  case h_1 =>
    exact encode_of_matchRow h fun m => formatN_fields (extract_of_match m 26 6 rfl) (extract_of_match m 0 26 rfl)
  case h_2 =>
    exact encode_of_matchRow h fun m => formatB_fields (extract_of_match m 26 6 rfl) (extract_of_match m 18 8 rfl)
  case h_3 =>
    exact encode_of_matchRow h fun m =>
      formatRT_fields (extract_of_match m 26 6 rfl) (extract_halfField w) (extract_of_match m 0 16 rfl)
  case h_4 =>
    exact encode_of_matchRow h fun m =>
      formatRK_fields (extract_of_match m 26 6 rfl) (extract_of_match m 25 1 rfl) (extract_of_match m 0 20 rfl)
  case h_5 =>
    exact encode_of_matchRow h fun m => formatRB_fields (extract_of_match m 26 6 rfl) (extract_of_match m 0 15 rfl)
  case h_6 =>
    exact encode_of_matchRow h fun m =>
      formatRT_fields (extract_of_match m 26 6 rfl) (extract_of_match m 16 1 rfl) (extract_of_match m 0 16 rfl)
  case h_7 =>
    exact encode_of_matchRow h fun m => formatR2_fields (extract_of_match m 26 6 rfl) (extract_of_match m 0 20 rfl)
  case h_8 | h_9 | h_10 | h_11 | h_12 =>
    exact encode_of_matchRow h fun m => formatR3_fields (extract_of_match m 26 6 rfl) (extract_of_match m 0 17 rfl)
  case h_13 =>
    exact encode_of_matchRow h fun m => formatI_fields (extract_of_match m 26 6 rfl) (extract_of_match m 8 15 rfl)
  case h_14 | h_15 =>
    exact encode_of_matchRow h fun m => formatM_fields (extract_of_match m 26 6 rfl) rfl (extract_of_match m 16 7 rfl)
  case h_16 =>
    exact encode_of_matchRow h fun m =>
      formatM_fields (extract_of_match m 26 6 rfl) (extract_of_match m 23 3 rfl) (extract_of_match m 16 7 rfl)
  case h_17 => cases h

end Sys2Proof
end

section
/-! What a command can do, said once (`exec_effect`): every command answers, and its next state has one of the shapes
of `Effect`. `HostEffect` says the same of a transaction of the host. The frames of R43 and the invariant are read off
these shapes. -/

namespace Sys2Proof.Machine

open Sys2Proof Sys2Proof.Safety

/-- The shapes of the state a command leaves. -/
inductive Effect (i : Instr) (s : State) : State → Prop
  /-- Error entry, with the command's own word (R217). -/
  | error (e : ErrCode) (x : Word) (he : e ≠ .noError) : Effect i s (s.raiseError (encode i) e x)
  /-- NOP (R185). -/
  | nop (hn : i = .nop) : Effect i s s.complete
  /-- The publication of BUILD (R117). -/
  | build (lo hi : BitVec 9) (hb : i = .build lo hi) : Effect i s s.build.complete
  /-- A write of all lanes of the destination (R43). -/
  | lanes (rd : VReg) (f : Nat → Byte) (hrd : writesV i = some rd) : Effect i s (s.writeV rd f).complete
  /-- The same after the lazy build of a command that needs the MagicTable (R119). -/
  | lanesBuilt (rd : VReg) (f : Nat → Byte) (hrd : writesV i = some rd) (hm : needsMagic i = true) :
      Effect i s (s.lazyBuild.writeV rd f).complete
  /-- A LENIENT QUOTIENT, with its DZ event (R169, R171). -/
  | quotient (rd ra rb : VReg) (f : Nat → Byte) (zero : Bool) (hq : i = .quotient rd ra rb)
      (hp : s.params.policy = .lenient) : Effect i s ((s.lazyBuild.writeV rd f).noteDz zero).complete
  /-- A write of all bits of the destination mask (R133). -/
  | mask (kd : KReg) (f : Nat → Bool) (hkd : writesK i = some kd) : Effect i s (s.writeK kd f).complete
  /-- VLD (R190). -/
  | vld (rd : VReg) (f : Nat → Stored Byte) (n : Nat) (hrd : writesV i = some rd) :
      Effect i s { s.writeCells rd f with draws := n }.complete
  /-- VST (R191). -/
  | vst (rs : VReg) (addr : BitVec 16) (bytes : List Byte) (hst : i = .vst rs addr)
      (hfit : s.fits addr s.params.w = true) (hlen : bytes.length = s.params.w) :
      Effect i s { s with buf := s.buf.writeRange addr.toNat bytes }.complete
  /-- TLD (R192). -/
  | tld (addr : BitVec 16) (cells : List (Stored Byte)) (n : Nat) (htld : i = .tld addr)
      (hlen : cells.length = 256) : Effect i s { s with user := cells, draws := n }.complete

/-- A slot that a field names is one of the MagicTable's exactly when the field is 0, 1 or 2 (R24). -/
theorem isMagic_of_slotOf {tsel : BitVec 3} {t : Slot} (h : slotOf tsel = some t) :
    t.isMagic = decide (tsel.toNat ≤ 2) := by
  revert t tsel; decide

/-- The lazy build for a slot is the lazy build for slots 0, 1 and 2 and nothing for the others (R119). -/
theorem State.lazyBuildFor_cases (s : State) {tsel : BitVec 3} {t : Slot} (h : slotOf tsel = some t) :
    (tsel.toNat ≤ 2 ∧ s.lazyBuildFor t = s.lazyBuild) ∨ (2 < tsel.toNat ∧ s.lazyBuildFor t = s) := by
  unfold State.lazyBuildFor
  rw [isMagic_of_slotOf h]
  by_cases h2 : tsel.toNat ≤ 2
  · exact .inl ⟨h2, by simp [h2]⟩
  · exact .inr ⟨by omega, by simp [h2]⟩

/-- A lookup of a slot: its lanes, after the lazy build if the slot needs it. -/
theorem Effect.lookup {i : Instr} {s : State} {tsel : BitVec 3} {t : Slot} (ht : slotOf tsel = some t)
    {rd : VReg} (f : Nat → Byte) (hrd : writesV i = some rd)
    (hm : needsMagic i = decide (tsel.toNat ≤ 2)) : Effect i s ((s.lazyBuildFor t).writeV rd f).complete := by
  rcases s.lazyBuildFor_cases ht with ⟨h2, e⟩ | ⟨_, e⟩ <;> rw [e]
  · exact .lanesBuilt rd f hrd (by simp [hm, h2])
  · exact .lanes rd f hrd

theorem execBuild_effect (lo hi : BitVec 9) (s : State) :
    ∃ t, execBuild lo hi s = .next t ∧ Effect (.build lo hi) s t := by
  unfold execBuild
  split_ifs
  · exact ⟨_, rfl, .error _ _ (by simp)⟩
  · exact ⟨_, rfl, .error _ _ (by simp)⟩
  · exact ⟨_, rfl, .build lo hi rfl⟩
  · exact ⟨_, rfl, .error _ _ (by simp)⟩

theorem execLookup128_effect (rd ra : VReg) (tsel : BitVec 3) (half : Half) (s : State) :
    ∃ t, execLookup128 rd ra tsel half s = .next t ∧ Effect (.lookup128 rd ra tsel half) s t := by
  unfold execLookup128
  split
  next => exact ⟨_, rfl, .error _ _ (by simp)⟩
  next t ht => exact ⟨_, rfl, .lookup ht _ rfl rfl⟩

theorem execWtl_effect (rd ra : VReg) (tsel : BitVec 3) (s : State) :
    ∃ t, execWtl rd ra tsel s = .next t ∧ Effect (.wtl rd ra tsel) s t := by
  unfold execWtl
  split
  next => exact ⟨_, rfl, .error _ _ (by simp)⟩
  next t ht => exact ⟨_, rfl, .lookup ht _ rfl rfl⟩

theorem execQuotient_effect (rd ra rb : VReg) (s : State) :
    ∃ t, execQuotient rd ra rb s = .next t ∧ Effect (.quotient rd ra rb) s t := by
  unfold execQuotient
  split
  next => exact ⟨_, rfl, .error _ _ (by simp)⟩
  next => exact ⟨_, rfl, .lanesBuilt rd _ rfl rfl⟩
  next _ hp => exact ⟨_, rfl, .quotient rd ra rb _ _ rfl hp⟩

theorem execVld_effect (rd : VReg) (addr : BitVec 16) (s : State) :
    ∃ t, execVld rd addr s = .next t ∧ Effect (.vld rd addr) s t := by
  unfold execVld
  split
  · exact ⟨_, rfl, .vld rd _ _ rfl⟩
  · exact ⟨_, rfl, .error _ _ (by simp)⟩

theorem execVst_effect (rs : VReg) (addr : BitVec 16) (s : State) :
    ∃ t, execVst rs addr s = .next t ∧ Effect (.vst rs addr) s t := by
  unfold execVst
  split
  next hfit => exact ⟨_, rfl, .vst rs addr _ rfl hfit (by simp)⟩
  next => exact ⟨_, rfl, .error _ _ (by simp)⟩

theorem execTld_effect (addr : BitVec 16) (s : State) :
    ∃ t, execTld addr s = .next t ∧ Effect (.tld addr) s t := by
  unfold execTld
  split
  · exact ⟨_, rfl, .tld addr _ _ rfl (by simp)⟩
  · exact ⟨_, rfl, .error _ _ (by simp)⟩

/-- Every command answers a next state, of one of the shapes of `Effect`. -/
theorem exec_effect (i : Instr) (s : State) : ∃ t, exec i s = .next t ∧ Effect i s t := by
  cases i with
  | nop => exact ⟨_, rfl, .nop rfl⟩
  | build lo hi => exact execBuild_effect lo hi s
  | lookup128 rd ra tsel half => exact execLookup128_effect rd ra tsel half s
  | highbitmask kd ra => exact ⟨_, rfl, .mask kd _ rfl⟩
  | blend rd ra rb kc => exact ⟨_, rfl, .lanes rd _ rfl⟩
  | wtl rd ra tsel => exact execWtl_effect rd ra tsel s
  | bitwidth rd ra => exact ⟨_, rfl, .lanes rd _ rfl⟩
  | mulhi rd ra rb => exact ⟨_, rfl, .lanes rd _ rfl⟩
  | vadd rd ra rb => exact ⟨_, rfl, .lanes rd _ rfl⟩
  | vsub rd ra rb => exact ⟨_, rfl, .lanes rd _ rfl⟩
  | vsrlv rd ra rb => exact ⟨_, rfl, .lanes rd _ rfl⟩
  | quotient rd ra rb => exact execQuotient_effect rd ra rb s
  | vsplat rd imm8 => exact ⟨_, rfl, .lanes rd _ rfl⟩
  | vld rd addr => exact execVld_effect rd addr s
  | vst rs addr => exact execVst_effect rs addr s
  | tld addr => exact execTld_effect addr s

/-- What a command answers has one of the shapes of `Effect`. -/
theorem effect_of_exec {i : Instr} {s t : State} (h : exec i s = .next t) : Effect i s t := by
  obtain ⟨t', h', he⟩ := exec_effect i s
  rw [h] at h'
  cases h'
  exact he

/-- What a word written to CMD does: a halted block discards it (R218), else the command it decodes to is executed or
the word raises IllegalCommand (R39, R103). -/
theorem issue_cases (w : Word) (s : State) :
    (s.halted = true ∧ issue w s = .next s) ∨
    (s.halted = false ∧ ∃ i, decode w = .ok i ∧ encode i = w ∧ issue w s = exec i s) ∨
    (s.halted = false ∧ issue w s = .next (s.raiseError w .illegalCommand 0)) := by
  unfold issue
  cases hh : s.halted with
  | true => exact .inl ⟨rfl, rfl⟩
  | false =>
    cases hd : decode w with
    | ok i => exact .inr (.inl ⟨rfl, i, rfl, encode_of_decode hd, rfl⟩)
    | error e => exact .inr (.inr ⟨rfl, rfl⟩)

/-- What a transaction of the host leaves (R248): the shapes of the state after it. -/
inductive HostEffect (x : HostTxn) (s : State) : State → Prop
  /-- A read of a register or of BUF: the reply, and for BUF a draw. -/
  | replied (r : Option Reply) (n : Nat) : HostEffect x s { s with reply := r, draws := n }
  /-- A write of STATUS (R34). -/
  | status (v : Word) (hx : x = .regWrite statusOffset v) : HostEffect x s (s.writeStatus v)
  /-- A word written to CMD (R39). -/
  | command (w : Word) (t : State) (hx : x = .regWrite cmdOffset w) (hi : issue w s = .next t) : HostEffect x s t
  /-- A write that is ignored. -/
  | ignored : HostEffect x s s
  /-- A byte written to BUF. -/
  | stored (a : Nat) (b : Byte) (ha : a < s.params.bufSize) : HostEffect x s { s with buf := s.buf.write a b }
  /-- Reset (R240). -/
  | reset (hx : x = .reset) : HostEffect x s s.resetBlock

theorem hostEffect_of_transact {x : HostTxn} {s t : State} (h : transact x s = .next t) : HostEffect x s t := by
  cases x with
  | regRead off => cases h; exact .replied _ _
  | regWrite off v =>
    simp only [transact, hostRegWrite] at h
    split_ifs at h with hs hc
    · cases h; exact .status v (by rw [hs])
    · exact .command v t (by rw [hc]) h
    · cases h; exact .ignored
  | bufRead a =>
    simp only [transact, hostBufRead] at h
    split at h <;> cases h <;> exact .replied _ _
  | bufWrite a b =>
    simp only [transact, hostBufWrite] at h
    split at h <;> cases h
    next ha => exact .stored _ b ha
    next => exact .ignored
  | reset => cases h; exact .reset rfl

/-- A step with a transaction to come carries it out, taken off the host's list (R248). -/
theorem step_of_pending {s : State} {x : HostTxn} {rest : List HostTxn} (h : s.pending = x :: rest) :
    step s = transact x { s with pending := rest } := by
  simp [step, nextTransaction, h]

/-- A step is idle, or carries out the first of the host's transactions (R230, R248). -/
theorem step_cases {s t : State} (h : step s = .next t) :
    (s.pending = [] ∧ t = s) ∨
    ∃ x rest, s.pending = x :: rest ∧ HostEffect x { s with pending := rest } t := by
  cases hp : s.pending with
  | nil =>
    have e : step s = .next s := by simp [step, nextTransaction, hp]
    rw [e] at h
    cases h
    exact .inl ⟨rfl, rfl⟩
  | cons x rest =>
    rw [step_of_pending hp] at h
    exact .inr ⟨x, rest, rfl, hostEffect_of_transact h⟩

end Sys2Proof.Machine
end

section
/-! The invariant (O55, O56): it holds at reset, each shared operation keeps it, so every shape of `Effect` and every
transaction of the host keeps it. -/

namespace Sys2Proof.Machine

open Sys2Proof

/-- The lengths of the vector registers after a write of all lanes of one of them. -/
theorem State.length_v_writeCells (s : State) (rd : VReg) (f : Nat → Stored Byte) (r : VReg) :
    ((s.writeCells rd f).v[r]).length = if r = rd then s.params.w else (s.v[r]).length := by
  by_cases h : r = rd
  · subst h; simp
  · have h' : rd.val ≠ r.val := fun e => h (Fin.ext e.symm)
    simp [h, Vector.getElem_set_ne _ _ h']

/-- The lengths of the mask registers after a write of all bits of one of them. -/
theorem State.length_k_writeK (s : State) (kd : KReg) (f : Nat → Bool) (c : KReg) :
    ((s.writeK kd f).k[c]).length = if c = kd then s.params.w else (s.k[c]).length := by
  by_cases h : c = kd
  · subst h; simp
  · have h' : kd.val ≠ c.val := fun e => h (Fin.ext e.symm)
    simp [h, Vector.getElem_set_ne _ _ h']

end Sys2Proof.Machine

namespace Sys2Proof.Safety

open Sys2Proof Sys2Proof.Machine

/-! ### Reset -/

theorem invariant_resetWith {p : Params} (h : p.legal = true) : Invariant (State.resetWith p) where
  legal := h
  lanes r := by simp
  masks c := by simp
  slots := ⟨List.length_replicate, List.length_replicate, List.length_replicate, List.length_replicate⟩
  magic := by simp
  bufWf := rfl
  bufBelow := rfl
  haltedCode := by simp
  dzLenient := by simp

/-! ### The shared operations -/

section

variable {s : State} (h : Invariant s)
include h

theorem Invariant.complete : Invariant s.complete := { h with }

theorem Invariant.setPending (l : List HostTxn) : Invariant { s with pending := l } := { h with }

theorem Invariant.setDraws (n : Nat) : Invariant { s with draws := n } := { h with }

theorem Invariant.replied (r : Option Reply) (n : Nat) : Invariant { s with reply := r, draws := n } := { h with }

theorem Invariant.raiseError (c : Word) {e : ErrCode} (he : e ≠ .noError) (x : Word) :
    Invariant (s.raiseError c e x) :=
  { h with haltedCode := by simp [he] }

theorem Invariant.build : Invariant s.build :=
  { h with
    slots := by simp [magicSlot, h.slots]
    magic := fun _ => ⟨rfl, rfl, rfl⟩ }

theorem Invariant.lazyBuild : Invariant s.lazyBuild := by
  rcases s.lazyBuild_cases with ⟨_, e⟩ | ⟨_, e⟩ <;> rw [e]
  · exact h
  · exact h.build

theorem Invariant.writeCells (rd : VReg) (f : Nat → Stored Byte) : Invariant (s.writeCells rd f) :=
  { h with
    lanes := fun r => by
      rw [State.length_v_writeCells]
      split
      · rfl
      · exact h.lanes r }

theorem Invariant.writeV (rd : VReg) (f : Nat → Byte) : Invariant (s.writeV rd f) := h.writeCells rd _

theorem Invariant.writeK (kd : KReg) (f : Nat → Bool) : Invariant (s.writeK kd f) :=
  { h with
    masks := fun c => by
      rw [State.length_k_writeK]
      split
      · rfl
      · exact h.masks c }

/-- Bytes written inside BUF keep its canonical form and its address range (R66). -/
theorem Invariant.writeBuf (x : Nat) (bytes : List Byte) (hx : x + bytes.length ≤ s.params.bufSize) :
    Invariant { s with buf := s.buf.writeRange x bytes } :=
  { h with
    bufWf := Memory.writeRange_wf _ _ _ h.bufWf
    bufBelow := Memory.writeRange_below _ _ _ _ hx h.bufBelow }

theorem Invariant.setUser {cells : List (Stored Byte)} (hl : cells.length = 256) :
    Invariant { s with user := cells } :=
  { h with slots := ⟨h.slots.1, h.slots.2.1, h.slots.2.2.1, hl⟩ }

theorem Invariant.noteDz (hp : s.params.policy = .lenient) (zero : Bool) : Invariant (s.noteDz zero) :=
  { h with dzLenient := fun _ => hp }

/-- Error return clears HALTED and ERRCODE together (R219). -/
theorem Invariant.errorReturn : Invariant s.errorReturn := { h with haltedCode := by simp }

theorem Invariant.clearDz : Invariant s.clearDz := { h with dzLenient := by simp }

theorem Invariant.writeStatus (x : Word) : Invariant (s.writeStatus x) := by
  have h1 : Invariant (if x.getLsbD 1 && s.halted then s.errorReturn else s) := by
    split
    · exact h.errorReturn
    · exact h
  unfold State.writeStatus
  dsimp only
  split
  · exact h1.clearDz
  · exact h1

theorem Invariant.resetBlock : Invariant s.resetBlock := { invariant_resetWith h.legal with }

/-! ### Commands, transactions, steps -/

theorem Invariant.effect {i : Instr} {t : State} (he : Effect i s t) : Invariant t := by
  cases he with
  | error e x he => exact h.raiseError _ he x
  | nop => exact h.complete
  | build => exact h.build.complete
  | lanes rd f => exact (h.writeV rd f).complete
  | lanesBuilt rd f => exact (h.lazyBuild.writeV rd f).complete
  | quotient rd ra rb f zero _ hp => exact ((h.lazyBuild.writeV rd f).noteDz (by simpa using hp) zero).complete
  | mask kd f => exact (h.writeK kd f).complete
  | vld rd f n => exact ((h.writeCells rd f).setDraws n).complete
  | vst rs addr bytes _ hfit hlen =>
    have hx : addr.toNat + bytes.length ≤ s.params.bufSize := by simpa [State.fits, hlen] using hfit
    exact (h.writeBuf _ _ hx).complete
  | tld addr cells n _ hlen => exact ((h.setUser hlen).setDraws n).complete

theorem Invariant.issue {w : Word} {t : State} (hi : issue w s = .next t) : Invariant t := by
  rcases issue_cases w s with ⟨_, e⟩ | ⟨_, i, _, _, e⟩ | ⟨_, e⟩ <;> rw [e] at hi
  · cases hi; exact h
  · exact h.effect (effect_of_exec hi)
  · cases hi; exact h.raiseError _ (by simp) _

theorem Invariant.hostEffect {x : HostTxn} {t : State} (he : HostEffect x s t) : Invariant t := by
  cases he with
  | replied r n => exact h.replied r n
  | status v => exact h.writeStatus v
  | command w _ _ hi => exact h.issue hi
  | ignored => exact h
  | stored a b ha => exact h.writeBuf a [b] ha
  | reset => exact h.resetBlock

end

/-- Settles O55. -/
theorem invariantHoldsAtReset : Obligations.InvariantHoldsAtReset :=
  ⟨invariant_resetWith rfl, fun _ hp => invariant_resetWith hp⟩

/-- Settles O56: an idle step changes nothing, and every transaction keeps the invariant. -/
theorem everyStepKeepsTheInvariant : Obligations.EveryStepKeepsTheInvariant := by
  intro s t h hstep
  rcases step_cases hstep with ⟨_, rfl⟩ | ⟨x, rest, _, hx⟩
  · exact h
  · exact (h.setPending rest).hostEffect hx

end Sys2Proof.Safety
end

section
/-! Who writes what (R43): a command completes or enters an error, and each piece of the state is written only by the
commands that list it. From these frames: the counter (O50), the error registers (O54) and the published MagicTable
(O57). -/

namespace Sys2Proof.Machine

/-- A write of V[rd] leaves the other vector registers. -/
theorem State.v_writeCells_other (s : State) {rd r : VReg} (h : rd ≠ r) (f : Nat → Stored Byte) :
    (s.writeCells rd f).v[r] = s.v[r] := by
  have h' : rd.val ≠ r.val := fun e => h (Fin.ext e)
  simp [Vector.getElem_set_ne _ _ h']

end Sys2Proof.Machine

namespace Sys2Proof.Safety

open Sys2Proof Sys2Proof.Machine

/-! ### One lemma per piece of state -/

section

variable {i : Instr} {s t : State} (he : Effect i s t)
include he

/-- A command completes or enters an error with its own word (R30, R217). -/
theorem completed_or_error_of_effect :
    Completed s t ∨ ∃ e x, e ≠ ErrCode.noError ∧ ErrorEntered (encode i) e x s t := by
  cases he with
  | error e x he => exact .inr ⟨e, x, he, s.raiseError_entered _ e x⟩
  | nop => exact .inl (s.complete_completed _ ⟨rfl, rfl, rfl⟩ rfl rfl rfl rfl rfl rfl)
  | build => exact .inl (s.complete_completed _ ⟨rfl, rfl, rfl⟩ rfl rfl rfl rfl rfl rfl)
  | lanes => exact .inl (s.complete_completed _ ⟨rfl, rfl, rfl⟩ rfl rfl rfl rfl rfl rfl)
  | lanesBuilt rd f =>
    exact .inl (s.complete_completed _ ⟨by simp, by simp, by simp⟩ (by simp) (by simp) (by simp) (by simp)
      (by simp) (by simp))
  | quotient rd ra rb f zero =>
    exact .inl (s.complete_completed _ ⟨by simp, by simp, by simp⟩ (by simp) (by simp) (by simp) (by simp)
      (by simp) (by simp))
  | mask => exact .inl (s.complete_completed _ ⟨rfl, rfl, rfl⟩ rfl rfl rfl rfl rfl rfl)
  | vld => exact .inl ⟨⟨rfl, rfl, rfl⟩, rfl, rfl, rfl, rfl, rfl, rfl⟩
  | vst => exact .inl ⟨⟨rfl, rfl, rfl⟩, rfl, rfl, rfl, rfl, rfl, rfl⟩
  | tld => exact .inl ⟨⟨rfl, rfl, rfl⟩, rfl, rfl, rfl, rfl, rfl, rfl⟩

theorem hostKept_of_effect : HostKept s t := by
  rcases completed_or_error_of_effect he with h | ⟨_, _, _, h⟩ <;> exact h.toHostKept

/-- Every consumed command adds one to CMDCNT (R30). -/
theorem cmdcnt_of_effect : t.cmdcnt = s.cmdcnt + 1 := by
  rcases completed_or_error_of_effect he with h | ⟨_, _, _, h⟩ <;> exact h.cmdcnt

theorem v_of_effect {r : VReg} (hr : writesV i ≠ some r) : t.v[r] = s.v[r] := by
  have other {rd : VReg} (hrd : writesV i = some rd) : rd ≠ r := fun e => hr (e ▸ hrd)
  cases he with
  | lanes rd f hrd => exact s.v_writeCells_other (other hrd) _
  | lanesBuilt rd f hrd => exact (s.lazyBuild.v_writeCells_other (other hrd) _).trans (by simp)
  | quotient rd ra rb f zero hq =>
    subst hq
    exact (s.lazyBuild.v_writeCells_other (other rfl) _).trans (by simp)
  | vld rd f n hrd => exact s.v_writeCells_other (other hrd) f
  | error | nop | build | mask | vst | tld => rfl

theorem k_of_effect {c : KReg} (hc : writesK i ≠ some c) : t.k[c] = s.k[c] := by
  cases he with
  | mask kd f hkd => exact (s.writeK_complete_only kd f).ks c fun e => hc (e ▸ hkd)
  | lanesBuilt | quotient => simp
  | error | nop | build | lanes | vld | vst | tld => rfl

theorem user_of_effect (hi : ∀ a, i ≠ .tld a) : t.user = s.user := by
  cases he with
  | tld addr cells n htld => exact absurd htld (hi addr)
  | lanesBuilt | quotient => simp
  | error | nop | build | lanes | mask | vld | vst => rfl

theorem buf_of_effect {x : Nat} (hx : ¬storesTo i s x) : t.buf.read x = s.buf.read x := by
  cases he with
  | vst rs addr bytes hst hfit hlen =>
    subst hst
    have hout : ¬(addr.toNat ≤ x ∧ x < addr.toNat + s.params.w) := hx
    have hnone (hle : addr.toNat ≤ x) : bytes[x - addr.toNat]? = none :=
      List.getElem?_eq_none (by omega)
    refine (Memory.read_writeRange s.buf addr.toNat bytes x).trans ?_
    split
    next hle => rw [hnone hle, Option.none_or]
    next => rfl
  | lanesBuilt | quotient => simp
  | error | nop | build | lanes | mask | vld | tld => rfl

theorem dz_of_effect (hi : ∀ rd ra rb, i ≠ .quotient rd ra rb) : t.dz = s.dz := by
  cases he with
  | quotient rd ra rb f zero hq => exact absurd hq (hi rd ra rb)
  | lanesBuilt => simp
  | error | nop | build | lanes | mask | vld | vst | tld => rfl

theorem magicKept_of_effect (hm : needsMagic i = false) (hb : ∀ lo hi, i ≠ .build lo hi) : MagicKept s t := by
  cases he with
  | build lo hi h => exact absurd h (hb lo hi)
  | lanesBuilt rd f _ h => simp [hm] at h
  | quotient rd ra rb f zero hq => subst hq; simp [needsMagic] at hm
  | error | nop | lanes | mask | vld | vst | tld => exact ⟨rfl, rfl, rfl, rfl⟩

end

/-- Settles O38: each clause is the frame of one piece of state. -/
theorem commandsWriteOnlyTheirListedState : Obligations.CommandsWriteOnlyTheirListedState := by
  intro i s t h
  have he := effect_of_exec h
  refine ⟨hostKept_of_effect he, cmdcnt_of_effect he, fun _ => v_of_effect he, fun _ => k_of_effect he,
    fun _ => buf_of_effect he, user_of_effect he, magicKept_of_effect he, dz_of_effect he, ?_⟩
  rcases completed_or_error_of_effect he with hc | herr
  · exact .inr ⟨hc.halted, hc.errCode, hc.erridx, hc.errcmd, hc.errinfo⟩
  · exact .inl herr

/-! ### The counter and the error registers -/

/-- A word written to CMD of a block that is not halted completes a command or enters an error with that word. -/
theorem completed_or_error_of_issue {w : Word} {s t : State} (hh : s.halted = false) (h : issue w s = .next t) :
    Completed s t ∨ ∃ e x, e ≠ ErrCode.noError ∧ ErrorEntered w e x s t := by
  rcases issue_cases w s with ⟨hh', _⟩ | ⟨_, i, _, rfl, e⟩ | ⟨_, e⟩
  · simp [hh] at hh'
  · exact completed_or_error_of_effect (effect_of_exec (e ▸ h))
  · rw [e] at h
    cases h
    exact .inr ⟨_, 0, by simp, s.raiseError_entered w _ 0⟩

/-- A halted block discards the word (R218). -/
theorem issue_of_halted (w : Word) {s : State} (hh : s.halted = true) : issue w s = .next s := by
  rw [issue, if_pos hh]

/-- A word written to CMD always answers: `exec` does, and so do the discard and the error (R39, R218). -/
theorem exists_issue_eq_next (w : Word) (s : State) : ∃ t, issue w s = .next t := by
  rcases issue_cases w s with ⟨_, e⟩ | ⟨_, i, _, _, e⟩ | ⟨_, e⟩
  · exact ⟨s, e⟩
  · obtain ⟨t, ht, _⟩ := exec_effect i s
    exact ⟨t, e.trans ht⟩
  · exact ⟨_, e⟩

/-- Settles O50. -/
theorem cmdcntCountsConsumedCommands : Obligations.CmdcntCountsConsumedCommands := by
  refine ⟨fun _ => rfl, fun s w => ?_, fun s x => ⟨rfl, s, rfl, rfl⟩⟩
  obtain ⟨t, ht⟩ := exists_issue_eq_next w s
  refine ⟨t, ht, ?_⟩
  cases hh : s.halted with
  | true =>
    rw [issue_of_halted w hh] at ht
    cases ht
    simp
  | false =>
    have hc : t.cmdcnt = s.cmdcnt + 1 := by
      rcases completed_or_error_of_issue hh ht with h | ⟨_, _, _, h⟩ <;> exact h.cmdcnt
    simp [hc, BitVec.toNat_add]

/-- A transaction keeps the error registers, or is Reset, or is a command that enters an error (R35, R36). -/
theorem errorRegisters_of_hostEffect {x : HostTxn} {s t : State} (he : HostEffect x s t) :
    (t.erridx = s.erridx ∧ t.errcmd = s.errcmd ∧ t.errinfo = s.errinfo) ∨ x = .reset ∨ ∃ w e y,
      x = .regWrite cmdOffset w ∧ s.halted = false ∧ e ≠ ErrCode.noError ∧ ErrorEntered w e y s t := by
  cases he with
  | replied | ignored | stored => exact .inl ⟨rfl, rfl, rfl⟩
  | status v => exact .inl (by simp)
  | reset hx => exact .inr (.inl hx)
  | command w _ hx hi =>
    cases hh : s.halted with
    | true =>
      rw [issue_of_halted w hh] at hi
      cases hi
      exact .inl ⟨rfl, rfl, rfl⟩
    | false =>
      rcases completed_or_error_of_issue hh hi with h | ⟨e, y, hne, h⟩
      · exact .inl ⟨h.erridx, h.errcmd, h.errinfo⟩
      · exact .inr (.inr ⟨w, e, y, hx, rfl, hne, h⟩)

/-- Settles O54: only an error leaves a running block halted, and only an error or Reset writes the registers. -/
theorem errorRegistersKeepTheLastError : Obligations.ErrorRegistersKeepTheLastError := by
  refine ⟨fun _ => ⟨rfl, rfl⟩, fun w s t hh hi ht => ?_, fun s t hstep => ?_⟩
  · rcases completed_or_error_of_issue hh hi with h | ⟨_, _, _, h⟩
    · rw [h.halted, hh] at ht
      cases ht
    · exact ⟨h.erridx, h.errcmd⟩
  · rcases step_cases hstep with ⟨_, rfl⟩ | ⟨x, rest, hp, he⟩
    · exact .inl ⟨rfl, rfl, rfl⟩
    · rcases errorRegisters_of_hostEffect he with hkept | rfl | ⟨w, e, y, rfl, hh, hne, h⟩
      · exact .inl hkept
      · exact .inr (.inl ⟨rest, hp⟩)
      · exact .inr (.inr ⟨w, rest, e, y, hp, hh, hne, h⟩)

/-! ### The published MagicTable -/

theorem magicKept_refl (s : State) : MagicKept s s := ⟨rfl, rfl, rfl, rfl⟩

/-- Publishing again under the published table changes nothing of it (R120). -/
theorem magicKept_of_published {s t : State} (hs : MagicPublished s) (hv : s.mtValid = true)
    (ht : MagicPublished t) (hw : t.mtValid = true) : MagicKept s t := by
  obtain ⟨hm, h1, h2⟩ := hs
  obtain ⟨hm', h1', h2'⟩ := ht
  exact ⟨hm'.trans hm.symm, h1'.trans h1.symm, h2'.trans h2.symm, hw.trans hv.symm⟩

/-- The lazy build keeps the MagicTable or publishes it whole (R119, R121). -/
theorem magicKept_or_published_of_lazyBuild (s : State) :
    MagicKept s s.lazyBuild ∨ (MagicPublished s.lazyBuild ∧ s.lazyBuild.mtValid = true) := by
  obtain ⟨hv, hkept, hpub⟩ := s.lazyBuild_built
  cases hm : s.mtValid with
  | true => exact .inl (hkept hm)
  | false => exact .inr ⟨hpub hm, hv⟩

/-- A command keeps the MagicTable or publishes it whole (R121). -/
theorem magicKept_or_published_of_effect {i : Instr} {s t : State} (he : Effect i s t) :
    MagicKept s t ∨ (MagicPublished t ∧ t.mtValid = true) := by
  cases he with
  | build => exact .inr ⟨⟨rfl, rfl, rfl⟩, rfl⟩
  | lanesBuilt | quotient => exact magicKept_or_published_of_lazyBuild s
  | error | nop | lanes | mask | vld | vst | tld => exact .inl ⟨rfl, rfl, rfl, rfl⟩

/-- A transaction but Reset keeps the MagicTable or publishes it whole (R121). -/
theorem magicKept_or_published_of_hostEffect {x : HostTxn} {s t : State} (he : HostEffect x s t)
    (hx : x ≠ .reset) : MagicKept s t ∨ (MagicPublished t ∧ t.mtValid = true) := by
  cases he with
  | replied | ignored | stored => exact .inl ⟨rfl, rfl, rfl, rfl⟩
  | status v => exact .inl ⟨by simp, by simp, by simp, by simp⟩
  | reset h => exact absurd h hx
  | command w _ _ hi =>
    rcases issue_cases w s with ⟨_, e⟩ | ⟨_, i, _, _, e⟩ | ⟨_, e⟩ <;> rw [e] at hi
    · cases hi; exact .inl (magicKept_refl s)
    · exact magicKept_or_published_of_effect (effect_of_exec hi)
    · cases hi; exact .inl ⟨rfl, rfl, rfl, rfl⟩

/-- Settles O57: a step keeps the table or publishes it, and the invariant says that it is published already. -/
theorem publishedMagicTableNeverChanges : Obligations.PublishedMagicTableNeverChanges := by
  intro s t h hv hreset hstep
  rcases step_cases hstep with ⟨_, rfl⟩ | ⟨x, rest, hp, he⟩
  · exact magicKept_refl _
  · have hx : x ≠ .reset := fun e => hreset rest (e ▸ hp)
    rcases magicKept_or_published_of_hostEffect he hx with hk | ⟨hpub, hw⟩
    · exact hk
    · exact magicKept_of_published (h.magic hv) hv hpub hw

end Sys2Proof.Safety
end

section
/-! The host's view: the register map, STATUS, ID, Reset (O45, O47, O48, O52), the table slots (O22) and a step's
transaction (O43). -/

namespace Sys2Proof.Machine

open Sys2Proof Sys2Proof.Safety

/-! ### Table slots -/

/-- An entry of slot 3 holds the bit width itself: it is at most 8 (R27, R150). -/
theorem toNat_bitWidthRom (x : Byte) : (bitWidthRom x).toNat = bitWidth x := by
  have hle : bitWidth x ≤ 8 := by
    unfold bitWidth
    split_ifs <;> omega
  rw [bitWidthRom, BitVec.toNat_ofNat]
  omega

/-- Slot 3 is the ROM (R27). -/
theorem State.tableEntry_bitWidth (s : State) (x : Byte) : s.tableEntry .bitWidth x.toNat = bitWidthRom x := by
  simp [State.tableEntry]

/-- Settles O22. -/
theorem slotNumbersNameTheTables : Obligations.SlotNumbersNameTheTables :=
  ⟨rfl, rfl, rfl, rfl, rfl, rfl, rfl, rfl, fun s x => ⟨rfl, rfl, rfl, s.tableEntry_bitWidth x, rfl⟩⟩

/-! ### STATUS and ID -/

/-- STATUS has MT_VALID, HALTED and DZ in its three lowest bits, below a 0 and ERRCODE (R34). -/
theorem State.statusWord_getLsbD (s : State) (i : Nat) :
    s.statusWord.getLsbD i =
      if i = 0 then s.mtValid
      else if i = 1 then s.halted
      else if i = 2 then s.dz
      else if i = 3 then false
      else s.errCode.bits.getLsbD (i - 4) := by
  refine (BitVec.getLsbD_append (x := 0#24 ++ s.errCode.bits ++ 0#1 ++ BitVec.ofBool s.dz ++
    BitVec.ofBool s.halted) (y := BitVec.ofBool s.mtValid)).trans ?_
  grind

/-- A STATUS write as one record update: W1C of HALTED with ERRCODE, and of DZ (R34). -/
theorem State.writeStatus_eq (s : State) (x : Word) :
    s.writeStatus x = { s with
      halted := if x.getLsbD 1 = true then false else s.halted
      errCode := if x.getLsbD 1 = true ∧ s.halted = true then .noError else s.errCode
      dz := if x.getLsbD 2 = true then false else s.dz } := by
  obtain ⟨_, _, _, _, _, _, _, _, _, halted⟩ := s
  unfold State.writeStatus
  cases x.getLsbD 1 <;> cases x.getLsbD 2 <;> cases halted <;> rfl

/-- STATUS is 0 after reset (R42). -/
theorem State.statusWord_resetWith (p : Params) : (State.resetWith p).statusWord = 0 := by
  refine BitVec.eq_of_getLsbD_eq fun i _ => ?_
  simp [State.statusWord_getLsbD, ErrCode.bits]

/-- Settles O45. -/
theorem statusReadsAndClears : Obligations.StatusReadsAndClears := by
  refine ⟨fun s => ⟨s.statusWord_getLsbD 0, s.statusWord_getLsbD 1, s.statusWord_getLsbD 2,
    s.statusWord_getLsbD 3, ?_, ?_⟩, State.statusWord_resetWith, fun s x => ?_⟩
  · refine BitVec.eq_of_getLsbD_eq fun i hi => ?_
    rw [BitVec.getLsbD_extractLsb', State.statusWord_getLsbD]
    grind
  · refine BitVec.eq_of_getLsbD_eq fun i hi => ?_
    rw [BitVec.getLsbD_extractLsb', State.statusWord_getLsbD]
    grind
  · exact congrArg Host.Outcome.next (s.writeStatus_eq x)

theorem idWord_version (p : Params) : (idWord p).extractLsb' 0 8 = 1#8 :=
  BitVec.extractLsb'_append_eq_right

theorem idWord_log2 (p : Params) : (idWord p).extractLsb' 8 4 = p.lanes.log2 :=
  (BitVec.extractLsb'_append_eq_of_le (by decide)).trans BitVec.extractLsb'_append_eq_right

theorem idWord_policy (p : Params) : (idWord p).extractLsb' 12 1 = p.policy.bit :=
  (BitVec.extractLsb'_append_eq_of_le (by decide)).trans <|
    (BitVec.extractLsb'_append_eq_of_le (by decide)).trans BitVec.extractLsb'_append_eq_right

theorem idWord_zeros (p : Params) : (idWord p).extractLsb' 13 3 = 0#3 :=
  (BitVec.extractLsb'_append_eq_of_le (by decide)).trans <|
    (BitVec.extractLsb'_append_eq_of_le (by decide)).trans <|
      (BitVec.extractLsb'_append_eq_of_le (by decide)).trans BitVec.extractLsb'_append_eq_right

theorem idWord_bufSize (p : Params) : (idWord p).extractLsb' 16 16 = BitVec.ofNat 16 (p.bufSize - 1) :=
  (BitVec.extractLsb'_append_eq_of_le (by decide)).trans <|
    (BitVec.extractLsb'_append_eq_of_le (by decide)).trans <|
      (BitVec.extractLsb'_append_eq_of_le (by decide)).trans BitVec.extractLsb'_append_eq_left

theorem two_pow_log2 (l : LaneCount) : 2 ^ l.log2.toNat = l.toNat := by
  cases l <;> rfl

theorem policy_bit (d : Div0Policy) : d.bit.getLsbD 0 = true ↔ d = .lenient := by
  cases d <;> decide

/-- Settles O48. -/
theorem idFieldsReportTheParameters : Obligations.IdFieldsReportTheParameters := by
  intro p hp
  refine ⟨idWord_version p, ?_, ?_, idWord_zeros p, ?_⟩
  · rw [idWord_log2]
    exact two_pow_log2 p.lanes
  · have hbit : (idWord p).getLsbD 12 = p.policy.bit.getLsbD 0 := by
      simp [← idWord_policy]
    rw [hbit, policy_bit]
  · have hle : 256 ≤ p.bufSize ∧ p.bufSize ≤ 65536 := by simpa [Params.legal] using hp
    rw [idWord_bufSize, BitVec.toNat_ofNat]
    omega

/-! ### The register map -/

/-- An offset other than the six that hold a register reads 0 (R32). -/
theorem State.regValue_eq_zero (s : State) {off : Nat} (h : 0x18 ≤ off ∨ off % 4 ≠ 0) : s.regValue off = 0 := by
  unfold State.regValue
  split
  case h_7 => rfl
  all_goals omega

/-- After reset only ID reads as more than 0 (R42). -/
theorem State.regValue_resetWith (p : Params) {off : Nat} (h : off ≠ 0) : (State.resetWith p).regValue off = 0 := by
  unfold State.regValue
  split
  next => exact absurd rfl h
  next => exact State.statusWord_resetWith p
  all_goals rfl

theorem hostRegWrite_of_ignored {off : Nat} (h1 : off ≠ statusOffset) (h2 : off ≠ cmdOffset) (x : Word)
    (s : State) : hostRegWrite off x s = .next s := by
  rw [hostRegWrite, if_neg h1, if_neg h2]

/-- Settles O47. -/
theorem registerMapReadsAndIgnoredWrites : Obligations.RegisterMapReadsAndIgnoredWrites := by
  refine ⟨fun p off => State.regValue_resetWith p, fun s => ⟨rfl, rfl, rfl, rfl, rfl, rfl, rfl, fun off h => ?_,
    fun _ => rfl, fun _ => ⟨rfl, rfl⟩, fun off x h1 h2 => hostRegWrite_of_ignored h1 h2 x s⟩⟩
  exact s.regValue_eq_zero (by omega)

/-! ### Reset -/

/-- Settles O52. -/
theorem resetLeavesTheStatedState : Obligations.ResetLeavesTheStatedState := by
  intro s t rest hp hstep
  rw [step_of_pending hp] at hstep
  cases hstep
  refine ⟨rfl, fun r i => ?_, fun c i => ?_, fun j => ?_, fun _ => rfl, fun x => ?_, rfl,
    State.statusWord_resetWith s.params, rfl, rfl, rfl, rfl, rfl, rfl, rfl, rfl⟩
  · exact congrArg Stored.written (State.laneCell_resetWith s.params r i)
  · exact congrArg Stored.written (State.maskCell_resetWith s.params c i)
  · exact congrArg Stored.written (State.userCell_resetWith s.params j)
  · rw [State.tableEntry_bitWidth, toNat_bitWidthRom]

/-! ### A step carries out the next transaction -/

theorem issue_of_decode {w : Word} {i : Instr} {s : State} (hh : s.halted = false) (hd : decode w = .ok i) :
    issue w s = exec i s := by
  simp [issue, hh, hd]

theorem hostBufRead_inside {a : BitVec 16} {s : State} (h : a.toNat < s.params.bufSize) :
    hostBufRead a s =
      .next { s with reply := some (.byte (s.loadCell a.toNat s.draws).val), draws := s.draws + 1 } :=
  if_pos h

theorem hostBufRead_outside {a : BitVec 16} {s : State} (h : s.params.bufSize ≤ a.toNat) :
    hostBufRead a s = .next { s with reply := some (.byte 0) } :=
  if_neg (by omega)

theorem hostBufWrite_inside {a : BitVec 16} {s : State} (b : Byte) (h : a.toNat < s.params.bufSize) :
    hostBufWrite a b s = .next { s with buf := s.buf.write a.toNat b } :=
  if_pos h

theorem hostBufWrite_outside {a : BitVec 16} {s : State} (b : Byte) (h : s.params.bufSize ≤ a.toNat) :
    hostBufWrite a b s = .next s :=
  if_neg (by omega)

/-- A written byte of BUF is what a read of it gives (R38). -/
theorem State.loadCell_of_read {s : State} {x n : Nat} {b : Byte} (h : s.buf.read x = some b) :
    s.loadCell x n = { val := b, written := true } := by
  simp [State.loadCell, h]

/-- Settles O43. -/
theorem stepRunsTheDecodedCommand : Obligations.StepRunsTheDecodedCommand := by
  intro s x rest hp s'
  have hstep : step s = transact x s' := step_of_pending hp
  refine ⟨hstep, ?_, ?_, ?_, ?_, ?_, ?_, ?_, ?_, ?_, ?_⟩
  · rintro off rfl
    exact hstep
  · rintro w i rfl hh hd
    exact hstep.trans (issue_of_decode hh hd)
  · rintro w rfl
    exact hstep
  · rintro v rfl
    exact hstep
  · rintro off v rfl h1 h2
    exact hstep.trans (hostRegWrite_of_ignored h1 h2 v s')
  · rintro a rfl ha
    refine ⟨(s'.loadCell a.toNat s'.draws).val, hstep.trans (hostBufRead_inside ha), fun c hc => ?_⟩
    rw [State.loadCell_of_read (s := s') hc]
  · rintro a rfl ha
    exact hstep.trans (hostBufRead_outside ha)
  · rintro a b rfl ha
    exact hstep.trans (hostBufWrite_inside b ha)
  · rintro a b rfl ha
    exact hstep.trans (hostBufWrite_outside b ha)
  · rintro rfl
    exact hstep

end Sys2Proof.Machine
end

section
/-! Noninterference of unwritten cells (O59): two blocks that agree on what is written fault on the same commands, and
every command and transaction that goes on leaves them in agreement. -/

namespace Sys2Proof.Machine

open Sys2Proof

/-- The wide lookup of R136 reads the entry that the lane value names. -/
theorem wideLookup_eq (f : Nat → Byte) (x : Byte) : wideLookup f x = f x.toNat := by
  have hbit : highBitMask x = decide (128 ≤ x.toNat) := (x.msb_eq_getLsbD_last).symm.trans x.msb_eq_decide
  have hlow : (x.extractLsb' 0 7).toNat = x.toNat % 128 := by simp [BitVec.extractLsb'_toNat]
  have hx := x.isLt
  simp only [wideLookup, blendLane, hbit, lookup128, tableHalf, halfBase, hlow, decide_eq_true_eq]
  split <;> congr 1 <;> omega

/-- Slot m, sh1 or sh2 is built once the lazy build for it has run (R119). -/
theorem State.lazyBuildFor_mtValid (s : State) {t : Slot} (ht : t.isMagic = true) :
    (s.lazyBuildFor t).mtValid = true := by
  rw [State.lazyBuildFor, if_pos ht]
  exact s.lazyBuild_mtValid

end Sys2Proof.Machine

namespace Sys2Proof.Safety

open Sys2Proof Sys2Proof.Machine

theorem all_range_congr {n : Nat} {p q : Nat → Bool} (h : ∀ i, i < n → p i = q i) :
    (List.range n).all p = (List.range n).all q := by
  rw [Bool.eq_iff_iff]
  simp +contextual [h]

theorem CellsAgree.refl {α : Type} (a : Stored α) : CellsAgree a a := ⟨rfl, fun _ => rfl⟩

theorem vWritten_iff (s : State) (r : VReg) :
    vWritten s r = true ↔ ∀ i, i < s.params.w → (s.laneCell r i).written = true := by
  simp [vWritten]

theorem kWritten_iff (s : State) (c : KReg) :
    kWritten s c = true ↔ ∀ i, i < s.params.w → (s.maskCell c i).written = true := by
  simp [kWritten]

/-! ### What two agreeing blocks read alike -/

section

variable {s t : State} (h : AgreeOnWritten s t)
include h

theorem AgreeOnWritten.vWritten_eq (r : VReg) : vWritten t r = vWritten s r := by
  rw [vWritten, vWritten, h.params]
  exact all_range_congr fun i hi => (h.vs r i hi).1.symm

theorem AgreeOnWritten.kWritten_eq (c : KReg) : kWritten t c = kWritten s c := by
  rw [kWritten, kWritten, h.params]
  exact all_range_congr fun i hi => (h.ks c i hi).1.symm

theorem AgreeOnWritten.lane_eq {r : VReg} {i : Nat} (hi : i < s.params.w)
    (hw : (s.laneCell r i).written = true) : s.lane r i = t.lane r i :=
  (h.vs r i hi).2 hw

theorem AgreeOnWritten.lanes_eq {r : VReg} (hw : vWritten s r = true) :
    ∀ i, i < s.params.w → s.lane r i = t.lane r i :=
  fun i hi => h.lane_eq hi ((vWritten_iff s r).1 hw i hi)

theorem AgreeOnWritten.maskBits_eq {c : KReg} (hw : kWritten s c = true) :
    ∀ i, i < s.params.w → s.maskBit c i = t.maskBit c i :=
  fun i hi => (h.ks c i hi).2 ((kWritten_iff s c).1 hw i hi)

/-- The USER entries that the lanes of V[ra] select carry the same marks, once those lanes are written. -/
theorem AgreeOnWritten.userWritten_eq {ra : VReg} (hw : vWritten s ra = true) {sel : Byte → Nat}
    (hsel : ∀ x, sel x < 256) : userWritten t ra sel = userWritten s ra sel := by
  rw [userWritten, userWritten, h.params]
  refine all_range_congr fun i hi => ?_
  rw [← h.lanes_eq hw i hi]
  exact (h.user _ (hsel _)).1.symm

theorem AgreeOnWritten.blendWritten_eq (ra rb : VReg) (kc : KReg) :
    blendWritten t ra rb kc = blendWritten s ra rb kc := by
  rw [blendWritten, blendWritten, h.kWritten_eq, h.params]
  cases hk : kWritten s kc with
  | false => rfl
  | true =>
    refine all_range_congr fun i hi => ?_
    rw [← h.maskBits_eq hk i hi]
    exact (h.vs _ i hi).1.symm

/-- A lookup in USER depends on an unwritten cell in both blocks or in neither. -/
theorem AgreeOnWritten.userRead_eq (ra : VReg) {sel : Byte → Nat} (hsel : ∀ x, sel x < 256) :
    (vWritten t ra && userWritten t ra sel) = (vWritten s ra && userWritten s ra sel) := by
  rw [h.vWritten_eq]
  cases hw : vWritten s ra with
  | false => rfl
  | true => rw [h.userWritten_eq hw hsel]

theorem AgreeOnWritten.fits_eq (addr : BitVec 16) (n : Nat) : t.fits addr n = s.fits addr n := by
  rw [State.fits, State.fits, h.params]

theorem AgreeOnWritten.loadCell_eq (x n : Nat) : t.loadCell x n = s.loadCell x n := by
  rw [State.loadCell, State.loadCell, h.buf]

end

/-- The entry a half and the low seven bits of a lane select is one of the 256 (R130). -/
theorem halfBase_add_lt (half : Half) (x : Byte) : halfBase half + (x.extractLsb' 0 7).toNat < 256 := by
  have := (x.extractLsb' 0 7).isLt
  cases half <;> simp only [halfBase] <;> omega

section

variable {s t : State} (h : AgreeOnWritten s t)
include h

/-- A command depends on an unwritten cell in both blocks or in neither. -/
theorem AgreeOnWritten.readsUnwritten_eq (i : Instr) : readsUnwritten i t = readsUnwritten i s := by
  cases i with
  | nop | build | vsplat | vld | tld => rfl
  | highbitmask | bitwidth | mulhi | vadd | vsub | vsrlv | quotient => simp only [readsUnwritten, h.vWritten_eq]
  | blend rd ra rb kc => simp only [readsUnwritten, h.blendWritten_eq]
  | vst rs addr => simp only [readsUnwritten, h.vWritten_eq, h.fits_eq, h.params]
  | lookup128 rd ra tsel half =>
    simp only [readsUnwritten, h.userRead_eq ra (halfBase_add_lt half)]
    simp only [h.vWritten_eq]
  | wtl rd ra tsel =>
    simp only [readsUnwritten, h.userRead_eq ra fun x => x.isLt]
    simp only [h.vWritten_eq]

/-- A table entry that is built or written reads alike. -/
theorem AgreeOnWritten.tableEntry_eq {slot : Slot} {j : Nat} (hj : j < 256)
    (hm : slot.isMagic = true → s.mtValid = true)
    (hu : slot = .user → (s.userCell j).written = true) : s.tableEntry slot j = t.tableEntry slot j := by
  cases slot with
  | m => simp only [State.tableEntry, (h.magic (hm rfl)).1]
  | sh1 => simp only [State.tableEntry, (h.magic (hm rfl)).2.1]
  | sh2 => simp only [State.tableEntry, (h.magic (hm rfl)).2.2]
  | bitWidth => rfl
  | user => exact (h.user j hj).2 (hu rfl)

/-- A QUOTIENT lane depends on the MagicTable only (R167, R168). -/
theorem AgreeOnWritten.quotientLane_eq (hv : s.mtValid = true) (n d : Byte) :
    s.quotientLane n d = t.quotientLane n d := by
  simp only [State.quotientLane, wideLookup_eq]
  rw [h.tableEntry_eq (slot := .m) d.isLt (fun _ => hv) (by simp),
    h.tableEntry_eq (slot := .sh1) d.isLt (fun _ => hv) (by simp),
    h.tableEntry_eq (slot := .sh2) d.isLt (fun _ => hv) (by simp)]

theorem AgreeOnWritten.firstZeroLane_eq {r : VReg} (hw : vWritten s r = true) :
    t.firstZeroLane r = s.firstZeroLane r := by
  rw [State.firstZeroLane, State.firstZeroLane, h.params]
  exact List.find?_congr fun i hi => by rw [h.lanes_eq hw i (List.mem_range.1 hi)]

theorem AgreeOnWritten.regValue_eq (off : Nat) : s.regValue off = t.regValue off := by
  unfold State.regValue
  split
  · rw [h.params]
  · rw [State.statusWord, State.statusWord, h.errCode, h.dz, h.halted, h.mtValid]
  · exact h.cmdcnt
  · exact h.erridx
  · exact h.errcmd
  · exact h.errinfo
  · rfl

/-! ### The shared operations keep the agreement -/

theorem AgreeOnWritten.setPending (l : List HostTxn) :
    AgreeOnWritten { s with pending := l } { t with pending := l } := { h with pending := rfl }

theorem AgreeOnWritten.setReply (r : Option Reply) :
    AgreeOnWritten { s with reply := r } { t with reply := r } := { h with reply := rfl }

theorem AgreeOnWritten.drawnReply (r : Option Reply) (n : Nat) :
    AgreeOnWritten { s with reply := r, draws := n } { t with reply := r, draws := n } :=
  { h with
    reply := rfl
    draws := rfl }

theorem AgreeOnWritten.setDraws (n : Nat) :
    AgreeOnWritten { s with draws := n } { t with draws := n } := { h with draws := rfl }

theorem AgreeOnWritten.setBuf (m : Memory) : AgreeOnWritten { s with buf := m } { t with buf := m } :=
  { h with buf := rfl }

theorem AgreeOnWritten.loadUser (l : List (Stored Byte)) (n : Nat) :
    AgreeOnWritten { s with user := l, draws := n } { t with user := l, draws := n } :=
  { h with
    user := fun _ _ => CellsAgree.refl _
    draws := rfl }

theorem AgreeOnWritten.complete : AgreeOnWritten s.complete t.complete :=
  { h with cmdcnt := by simp [h.cmdcnt] }

theorem AgreeOnWritten.raiseError (c : Word) (e : ErrCode) (x : Word) :
    AgreeOnWritten (s.raiseError c e x) (t.raiseError c e x) :=
  { h with
    halted := rfl
    errCode := rfl
    cmdcnt := by simp [h.cmdcnt]
    erridx := h.cmdcnt
    errcmd := rfl
    errinfo := rfl }

theorem AgreeOnWritten.build : AgreeOnWritten s.build t.build :=
  { h with
    mtValid := rfl
    magic := fun _ => ⟨rfl, rfl, rfl⟩ }

theorem AgreeOnWritten.lazyBuild : AgreeOnWritten s.lazyBuild t.lazyBuild := by
  rw [State.lazyBuild, State.lazyBuild, ← h.mtValid]
  split
  · exact h
  · exact h.build

theorem AgreeOnWritten.lazyBuildFor (slot : Slot) : AgreeOnWritten (s.lazyBuildFor slot) (t.lazyBuildFor slot) := by
  rw [State.lazyBuildFor, State.lazyBuildFor]
  split
  · exact h.lazyBuild
  · exact h

theorem AgreeOnWritten.noteDz {a b : Bool} (hz : a = b) : AgreeOnWritten (s.noteDz a) (t.noteDz b) :=
  { h with dz := by simp [h.dz, hz] }

theorem AgreeOnWritten.writeCells (rd : VReg) {f g : Nat → Stored Byte}
    (hfg : ∀ i, i < s.params.w → CellsAgree (f i) (g i)) :
    AgreeOnWritten (s.writeCells rd f) (t.writeCells rd g) :=
  { h with
    vs := fun r i (hi : i < s.params.w) => by
      by_cases hr : r = rd
      · subst hr
        rw [State.laneCell_writeCells_same, State.laneCell_writeCells_same, h.params, if_pos hi, if_pos hi]
        exact hfg i hi
      · rw [State.laneCell_writeCells_other s hr, State.laneCell_writeCells_other t hr]
        exact h.vs r i hi }

theorem AgreeOnWritten.writeV (rd : VReg) {f g : Nat → Byte} (hfg : ∀ i, i < s.params.w → f i = g i) :
    AgreeOnWritten (s.writeV rd f) (t.writeV rd g) :=
  h.writeCells rd fun i hi => ⟨rfl, fun _ => hfg i hi⟩

theorem AgreeOnWritten.writeK (kd : KReg) {f g : Nat → Bool} (hfg : ∀ i, i < s.params.w → f i = g i) :
    AgreeOnWritten (s.writeK kd f) (t.writeK kd g) :=
  { h with
    ks := fun c i (hi : i < s.params.w) => by
      by_cases hc : c = kd
      · subst hc
        rw [State.maskCell_writeK_same s c f hi, State.maskCell_writeK_same t c g (h.params ▸ hi)]
        exact ⟨rfl, fun _ => hfg i hi⟩
      · rw [State.maskCell_writeK_other s hc, State.maskCell_writeK_other t hc]
        exact h.ks c i hi }

theorem AgreeOnWritten.errorReturn : AgreeOnWritten s.errorReturn t.errorReturn :=
  { h with
    halted := rfl
    errCode := rfl }

theorem AgreeOnWritten.clearDz : AgreeOnWritten s.clearDz t.clearDz := { h with dz := rfl }

theorem AgreeOnWritten.writeStatus (x : Word) : AgreeOnWritten (s.writeStatus x) (t.writeStatus x) := by
  have h1 : AgreeOnWritten (if x.getLsbD 1 && s.halted then s.errorReturn else s)
      (if x.getLsbD 1 && t.halted then t.errorReturn else t) := by
    rw [← h.halted]
    split
    · exact h.errorReturn
    · exact h
  unfold State.writeStatus
  dsimp only
  split
  · exact h1.clearDz
  · exact h1

/-- Every cell of a block is unwritten right after Reset (R42). -/
theorem AgreeOnWritten.resetBlock : AgreeOnWritten s.resetBlock t.resetBlock := by
  have hr : t.resetBlock = s.resetBlock := by
    simp only [State.resetBlock, h.params, h.pending, h.reply, h.draws]
  rw [hr]
  exact ⟨⟨rfl, rfl, rfl⟩, fun _ _ _ => .refl _, fun _ _ _ => .refl _, fun _ _ => .refl _, rfl,
    fun _ => ⟨rfl, rfl, rfl⟩, rfl, rfl, rfl, rfl, rfl, rfl, rfl, rfl, rfl⟩

end

/-! ### Commands, transactions, the guarded step -/

/-- Both outcomes are next states, and these agree on what is written. -/
def ResultsAgree (a b : Result) : Prop := ∃ s t, a = .next s ∧ b = .next t ∧ AgreeOnWritten s t

theorem AgreeOnWritten.results {s t : State} (h : AgreeOnWritten s t) : ResultsAgree (.next s) (.next t) :=
  ⟨s, t, rfl, rfl, h⟩

/-- What the guard of a lookup command says: the lanes it reads are written, and so are the entries of USER they select
if it names USER (R38, R137). -/
structure LookupGuard (s : State) (ra : VReg) (slot : Slot) (sel : Byte → Nat) : Prop where
  lanes : vWritten s ra = true
  user  : slot = .user → ∀ i, i < s.params.w → (s.userCell (sel (s.lane ra i))).written = true

theorem lookupGuard_user {s : State} {ra : VReg} {sel : Byte → Nat}
    (hg : (!(vWritten s ra && userWritten s ra sel)) = false) : LookupGuard s ra .user sel := by
  obtain ⟨hv, hu⟩ : vWritten s ra = true ∧ userWritten s ra sel = true := by simpa using hg
  exact ⟨hv, fun _ => by simpa [userWritten] using hu⟩

theorem lookupGuard_other {s : State} {ra : VReg} {slot : Slot} {sel : Byte → Nat} (hne : slot ≠ .user)
    (hg : (!vWritten s ra) = false) : LookupGuard s ra slot sel :=
  ⟨by simpa using hg, fun e => absurd e hne⟩

theorem lookupGuard_of_lookup128 {s : State} {rd ra : VReg} {tsel : BitVec 3} {half : Half} {slot : Slot}
    (ht : slotOf tsel = some slot) (hg : readsUnwritten (.lookup128 rd ra tsel half) s = false) :
    LookupGuard s ra slot fun x => halfBase half + (x.extractLsb' 0 7).toNat := by
  simp only [readsUnwritten, ht] at hg
  cases slot with
  | user => exact lookupGuard_user hg
  | m | sh1 | sh2 | bitWidth => exact lookupGuard_other (by simp) hg

theorem lookupGuard_of_wtl {s : State} {rd ra : VReg} {tsel : BitVec 3} {slot : Slot}
    (ht : slotOf tsel = some slot) (hg : readsUnwritten (.wtl rd ra tsel) s = false) :
    LookupGuard s ra slot fun x => x.toNat := by
  simp only [readsUnwritten, ht] at hg
  cases slot with
  | user => exact lookupGuard_user hg
  | m | sh1 | sh2 | bitWidth => exact lookupGuard_other (by simp) hg

/-- The two lane lists a guard speaks of are written. -/
theorem written_of_guard {s : State} {ra rb : VReg} (hg : (!(vWritten s ra && vWritten s rb)) = false) :
    vWritten s ra = true ∧ vWritten s rb = true := by
  simpa using hg

section

variable {s t : State} (h : AgreeOnWritten s t)
include h

/-- A guarded lookup reads the same entries in both blocks, after the lazy build that its slot needs. -/
theorem AgreeOnWritten.lookup_eq {ra : VReg} {slot : Slot} {sel : Byte → Nat} (hg : LookupGuard s ra slot sel)
    (hsel : ∀ x, sel x < 256) : ∀ i, i < s.params.w →
      (s.lazyBuildFor slot).tableEntry slot (sel (s.lane ra i)) =
        (t.lazyBuildFor slot).tableEntry slot (sel (t.lane ra i)) := by
  intro i hi
  rw [← h.lanes_eq hg.lanes i hi]
  refine (h.lazyBuildFor slot).tableEntry_eq (hsel _) (fun hm => s.lazyBuildFor_mtValid hm) fun hu => ?_
  rw [State.userCell, State.lazyBuildFor_user]
  exact hg.user hu i hi

theorem AgreeOnWritten.execBuild (lo hi : BitVec 9) : ResultsAgree (execBuild lo hi s) (execBuild lo hi t) := by
  unfold Machine.execBuild
  split_ifs
  · exact (h.raiseError _ _ _).results
  · exact (h.raiseError _ _ _).results
  · exact h.build.complete.results
  · exact (h.raiseError _ _ _).results

theorem AgreeOnWritten.execLookup128 {rd ra : VReg} {tsel : BitVec 3} {half : Half}
    (hg : readsUnwritten (.lookup128 rd ra tsel half) s = false) :
    ResultsAgree (execLookup128 rd ra tsel half s) (execLookup128 rd ra tsel half t) := by
  unfold Machine.execLookup128
  cases ht : slotOf tsel with
  | none => exact (h.raiseError _ _ _).results
  | some slot =>
    have hval := h.lookup_eq (lookupGuard_of_lookup128 ht hg) (halfBase_add_lt half)
    exact ((h.lazyBuildFor slot).writeV rd fun i hi => hval i (by simpa using hi)).complete.results

theorem AgreeOnWritten.execWtl {rd ra : VReg} {tsel : BitVec 3} (hg : readsUnwritten (.wtl rd ra tsel) s = false) :
    ResultsAgree (execWtl rd ra tsel s) (execWtl rd ra tsel t) := by
  unfold Machine.execWtl
  cases ht : slotOf tsel with
  | none => exact (h.raiseError _ _ _).results
  | some slot =>
    have hval := h.lookup_eq (lookupGuard_of_wtl ht hg) fun x => x.isLt
    simp only [wideLookup_eq]
    exact ((h.lazyBuildFor slot).writeV rd fun i hi => hval i (by simpa using hi)).complete.results

theorem AgreeOnWritten.execBitwidth {rd ra : VReg} (hw : vWritten s ra = true) :
    ResultsAgree (execBitwidth rd ra s) (execBitwidth rd ra t) :=
  (h.writeV rd fun i hi => by rw [h.lanes_eq hw i hi]; rfl).complete.results

theorem AgreeOnWritten.execHighbitmask {kd : KReg} {ra : VReg} (hw : vWritten s ra = true) :
    ResultsAgree (execHighbitmask kd ra s) (execHighbitmask kd ra t) :=
  (h.writeK kd fun i hi => by rw [h.lanes_eq hw i hi]).complete.results

/-- BLEND reads the mask and, lane by lane, the selected operand only (R135). -/
theorem AgreeOnWritten.execBlend {rd ra rb : VReg} {kc : KReg} (hw : blendWritten s ra rb kc = true) :
    ResultsAgree (execBlend rd ra rb kc s) (execBlend rd ra rb kc t) := by
  obtain ⟨hk, hsel⟩ : kWritten s kc = true ∧ ∀ i, i < s.params.w →
      (s.laneCell (if s.maskBit kc i then rb else ra) i).written = true := by
    simpa [blendWritten] using hw
  refine (h.writeV rd fun i hi => ?_).complete.results
  have hlane := h.lane_eq hi (hsel i hi)
  rw [← h.maskBits_eq hk i hi]
  cases hb : s.maskBit kc i <;> simpa [blendLane, hb] using hlane

theorem AgreeOnWritten.mapLanes2 {f g : Byte → Byte → Byte} {rd ra rb : VReg} (hfg : ∀ a b, f a b = g a b)
    (ha : vWritten s ra = true) (hb : vWritten s rb = true) :
    AgreeOnWritten (s.mapLanes2 f rd ra rb) (t.mapLanes2 g rd ra rb) :=
  h.writeV rd fun i hi => by rw [h.lanes_eq ha i hi, h.lanes_eq hb i hi, hfg]

theorem AgreeOnWritten.quotientLanes {rd ra rb : VReg} (ha : vWritten s ra = true) (hb : vWritten s rb = true) :
    AgreeOnWritten (s.quotientLanes rd ra rb) (t.quotientLanes rd ra rb) := by
  have kept (r : VReg) : vWritten s.lazyBuild r = vWritten s r := by
    simp [vWritten, State.laneCell]
  exact h.lazyBuild.mapLanes2 (h.lazyBuild.quotientLane_eq s.lazyBuild_mtValid) ((kept ra).trans ha)
    ((kept rb).trans hb)

theorem AgreeOnWritten.execQuotient {rd ra rb : VReg} (ha : vWritten s ra = true) (hb : vWritten s rb = true) :
    ResultsAgree (execQuotient rd ra rb s) (execQuotient rd ra rb t) := by
  unfold Machine.execQuotient
  rw [h.params, h.firstZeroLane_eq hb]
  split
  · exact (h.raiseError _ _ _).results
  · exact (h.quotientLanes ha hb).complete.results
  · exact ((h.quotientLanes ha hb).noteDz rfl).complete.results

theorem AgreeOnWritten.execVld (rd : VReg) (addr : BitVec 16) :
    ResultsAgree (execVld rd addr s) (execVld rd addr t) := by
  unfold Machine.execVld
  simp only [h.params, h.fits_eq, h.loadCell_eq, ← h.draws]
  split
  · exact ((h.writeCells rd fun _ _ => .refl _).setDraws _).complete.results
  · exact (h.raiseError _ _ _).results

theorem AgreeOnWritten.execVst {rs : VReg} {addr : BitVec 16}
    (hw : s.fits addr s.params.w = true → vWritten s rs = true) :
    ResultsAgree (execVst rs addr s) (execVst rs addr t) := by
  unfold Machine.execVst
  have hfits : t.fits addr t.params.w = s.fits addr s.params.w := by rw [h.params, h.fits_eq]
  rw [hfits, ← h.buf]
  split
  next hfit =>
    have hbytes : (List.range t.params.w).map (fun i => t.lane rs i) =
        (List.range s.params.w).map fun i => s.lane rs i := by
      rw [h.params]
      exact List.map_congr_left fun i hi => (h.lanes_eq (hw hfit) i (List.mem_range.1 hi)).symm
    rw [hbytes]
    exact (h.setBuf _).complete.results
  next => exact (h.raiseError _ _ _).results

theorem AgreeOnWritten.execTld (addr : BitVec 16) : ResultsAgree (execTld addr s) (execTld addr t) := by
  unfold Machine.execTld
  simp only [h.fits_eq, h.loadCell_eq, ← h.draws]
  split
  · exact (h.loadUser _ _).complete.results
  · exact (h.raiseError _ _ _).results

/-- A command that depends on no unwritten cell keeps the agreement. -/
theorem AgreeOnWritten.exec {i : Instr} (hg : readsUnwritten i s = false) : ResultsAgree (exec i s) (exec i t) := by
  cases i with
  | nop => exact h.complete.results
  | build lo hi => exact h.execBuild lo hi
  | lookup128 rd ra tsel half => exact h.execLookup128 hg
  | highbitmask kd ra => exact h.execHighbitmask (by simpa [readsUnwritten] using hg)
  | blend rd ra rb kc => exact h.execBlend (by simpa [readsUnwritten] using hg)
  | wtl rd ra tsel => exact h.execWtl hg
  | bitwidth rd ra => exact h.execBitwidth (by simpa [readsUnwritten] using hg)
  | mulhi rd ra rb | vadd rd ra rb | vsub rd ra rb | vsrlv rd ra rb =>
    obtain ⟨ha, hb⟩ := written_of_guard hg
    exact (h.mapLanes2 (fun _ _ => rfl) ha hb).complete.results
  | quotient rd ra rb =>
    obtain ⟨ha, hb⟩ := written_of_guard hg
    exact h.execQuotient ha hb
  | vsplat rd imm8 => exact (h.writeV rd fun _ _ => rfl).complete.results
  | vld rd addr => exact h.execVld rd addr
  | vst rs addr => exact h.execVst (by simpa [readsUnwritten] using hg)
  | tld addr => exact h.execTld addr

/-- A word written to CMD keeps the agreement, if the command it decodes to depends on no unwritten cell. -/
theorem AgreeOnWritten.issue {w : Word}
    (hg : ∀ i, s.halted = false → decode w = .ok i → readsUnwritten i s = false) :
    ResultsAgree (issue w s) (issue w t) := by
  unfold Machine.issue
  rw [← h.halted]
  cases hh : s.halted with
  | true => exact h.results
  | false =>
    cases hd : decode w with
    | ok i => exact h.exec (hg i hh hd)
    | error e => exact (h.raiseError _ _ _).results

theorem AgreeOnWritten.bufRead (a : BitVec 16) : ResultsAgree (hostBufRead a s) (hostBufRead a t) := by
  rcases Nat.lt_or_ge a.toNat s.params.bufSize with ha | ha
  · rw [hostBufRead_inside ha, hostBufRead_inside (h.params ▸ ha), h.loadCell_eq, ← h.draws]
    exact (h.drawnReply _ _).results
  · rw [hostBufRead_outside ha, hostBufRead_outside (h.params ▸ ha)]
    exact (h.setReply _).results

theorem AgreeOnWritten.bufWrite (a : BitVec 16) (b : Byte) :
    ResultsAgree (hostBufWrite a b s) (hostBufWrite a b t) := by
  rcases Nat.lt_or_ge a.toNat s.params.bufSize with ha | ha
  · rw [hostBufWrite_inside b ha, hostBufWrite_inside b (h.params ▸ ha), ← h.buf]
    exact (h.setBuf _).results
  · rw [hostBufWrite_outside b ha, hostBufWrite_outside b (h.params ▸ ha)]
    exact h.results

/-- A transaction keeps the agreement, if it is no command that depends on an unwritten cell. -/
theorem AgreeOnWritten.transact {x : HostTxn}
    (hg : ∀ w i, x = .regWrite cmdOffset w → s.halted = false → decode w = .ok i → readsUnwritten i s = false) :
    ResultsAgree (transact x s) (transact x t) := by
  cases x with
  | regRead off =>
    simp only [Machine.transact, hostRegRead, ← h.regValue_eq]
    exact (h.setReply _).results
  | regWrite off v =>
    simp only [Machine.transact, hostRegWrite]
    split_ifs with hs hc
    · exact (h.writeStatus v).results
    · subst hc
      exact h.issue fun i hh hd => hg v i rfl hh hd
    · exact h.results
  | bufRead a => exact h.bufRead a
  | bufWrite a b => exact h.bufWrite a b
  | reset => exact h.resetBlock.results

/-- The guard sees the same in both blocks. -/
theorem AgreeOnWritten.nextReadsUnwritten_eq : nextReadsUnwritten t = nextReadsUnwritten s := by
  simp only [nextReadsUnwritten, h.pending, h.halted, h.params, h.buf, h.readsUnwritten_eq]

end

/-- What the guard says of a command that the host writes next. -/
theorem readsUnwritten_of_guard {s : State} {w : Word} {i : Instr} {rest : List HostTxn}
    (hg : nextReadsUnwritten s = false) (hp : s.pending = .regWrite cmdOffset w :: rest) (hh : s.halted = false)
    (hd : decode w = .ok i) : readsUnwritten i s = false := by
  simpa [nextReadsUnwritten, hp, hh, hd] using hg

/-- A step that the guard lets pass keeps the agreement. -/
theorem AgreeOnWritten.step {s t : State} (h : AgreeOnWritten s t) (hg : nextReadsUnwritten s = false) :
    ResultsAgree (step s) (step t) := by
  cases hp : s.pending with
  | nil => simpa only [Machine.step, nextTransaction, hp, h.pending] using h.results
  | cons x rest =>
    rw [step_of_pending hp, step_of_pending (h.pending.trans hp)]
    exact (h.setPending rest).transact fun w i hx hh hd => readsUnwritten_of_guard (s := s) hg (hx ▸ hp) hh hd

/-- Settles O59. -/
theorem unwrittenValuesReachNothingWritten : Obligations.UnwrittenValuesReachNothingWritten := by
  intro s t s' h hs
  unfold guardedStep at hs ⊢
  rw [h.nextReadsUnwritten_eq]
  cases hg : nextReadsUnwritten s with
  | true => simp [hg] at hs
  | false =>
    simp only [hg, Bool.false_eq_true, if_false] at hs ⊢
    obtain ⟨s1, t1, es, et, h1⟩ := h.step hg
    rw [hs] at es
    cases es
    exact ⟨t1, et, h1⟩

end Sys2Proof.Safety
end

section
/-! BUF from both sides (R66, R68): what VST, VLD, TLD and a WTL of USER read and leave when their range fits, and the
host's buffer port (O49); from these, that a later access sees the earlier write (O42). -/

namespace Sys2Proof.Machine

open Sys2Proof Sys2Proof.Safety

/-! ### Ranges and moved bytes -/

theorem State.fits_iff (s : State) (addr : BitVec 16) (n : Nat) :
    s.fits addr n = true ↔ addr.toNat + n ≤ s.params.bufSize :=
  decide_eq_true_iff

/-- The range fits in every block of the same construction. -/
theorem State.fits_of_params {s t : State} {addr : BitVec 16} (h : s.fits addr s.params.w = true)
    (hp : t.params = s.params) : t.fits addr t.params.w = true := by
  rw [State.fits_iff, hp]
  exact (s.fits_iff _ _).1 h

theorem movedFrom_of_eq_loadCell {s : State} {x n : Nat} {c : Stored Byte} (h : c = s.loadCell x n) :
    MovedFrom s x c := by
  rw [h, MovedFrom, State.loadCell]
  cases s.buf.read x <;> rfl

/-- A written byte arrives as it is (R190, R192). -/
theorem eq_of_movedFrom {s : State} {x : Nat} {c : Stored Byte} {b : Byte} (h : MovedFrom s x c)
    (hb : s.buf.read x = some b) : c = { val := b, written := true } := by
  simpa only [MovedFrom, hb] using h

/-! ### The commands that reach BUF or USER, when the range fits -/

section

variable {s : State} {addr : BitVec 16}

/-- VST leaves lane `i` of its source at BUF[addr + i] (R191). -/
theorem exec_vst_of_fits (rs : VReg) (h : s.fits addr s.params.w = true) :
    ∃ t, exec (.vst rs addr) s = .next t ∧ t.params = s.params ∧
      ∀ i, i < s.params.w → t.buf.read (addr.toNat + i) = some (s.lane rs i) := by
  refine ⟨_, if_pos h, rfl, fun i hi => ?_⟩
  simp [Memory.read_writeRange, hi]

/-- VLD leaves in lane `i` of its destination what it moves from BUF[addr + i] (R190). -/
theorem exec_vld_of_fits (rd : VReg) (h : s.fits addr s.params.w = true) :
    ∃ t, exec (.vld rd addr) s = .next t ∧ (t.v[rd]).length = s.params.w ∧
      ∀ i, i < s.params.w → MovedFrom s (addr.toNat + i) (t.laneCell rd i) := by
  refine ⟨_, if_pos h, by simp, fun i hi => movedFrom_of_eq_loadCell (n := s.draws + i) ?_⟩
  exact (s.laneCell_writeCells_same rd _ i).trans (if_pos hi)

/-- TLD leaves in entry `j` of USER what it moves from BUF[addr + j], and the lanes as they were (R192). -/
theorem exec_tld_of_fits (h : s.fits addr 256 = true) :
    ∃ t, exec (.tld addr) s = .next t ∧ t.params = s.params ∧ t.v = s.v ∧
      ∀ j, j < 256 → MovedFrom s (addr.toNat + j) (t.userCell j) := by
  refine ⟨_, if_pos h, rfl, rfl, fun j hj => movedFrom_of_eq_loadCell (n := s.draws + j) ?_⟩
  simp [State.userCell, hj]

/-- A WTL of slot 4 gives each lane the entry of USER that its index selects (R137). -/
theorem exec_wtl_user (rd ra : VReg) (s : State) :
    ∃ t, exec (.wtl rd ra 4) s = .next t ∧
      ∀ i, i < s.params.w → t.lane rd i = (s.userCell (s.lane ra i).toNat).val :=
  ⟨_, rfl, fun _ hi => (s.lane_writeV_same rd _ hi).trans (wideLookup_eq _ _)⟩

end

/-! ### The host's buffer port -/

/-- A host read of a written byte returns it (R248). -/
theorem hostBufRead_of_read {a : BitVec 16} {s : State} {b : Byte} (ha : a.toNat < s.params.bufSize)
    (hb : s.buf.read a.toNat = some b) :
    hostBufRead a s = .next { s with reply := some (.byte b), draws := s.draws + 1 } := by
  rw [hostBufRead_inside ha, State.loadCell_of_read hb]

/-- Settles O49. -/
theorem bufferPortReachesOneByte : Obligations.BufferPortReachesOneByte := by
  intro s a b
  refine ⟨fun ha => ⟨⟨_, hostBufWrite_inside b ha, rfl, ?_, fun y hy => ?_⟩, hostBufRead_of_read ha⟩,
    fun ha => ⟨hostBufWrite_outside b ha, hostBufRead_outside ha⟩⟩
  · exact (Memory.read_write ..).trans (if_pos rfl)
  · exact (Memory.read_write ..).trans (if_neg hy.symm)

/-! ### A later access sees the earlier write (R68) -/

theorem vld_after_vst (rs rd : VReg) {addr : BitVec 16} {s : State} (h : s.fits addr s.params.w = true) :
    ∃ t u, exec (.vst rs addr) s = .next t ∧ exec (.vld rd addr) t = .next u ∧
      LanesAre u rd s.params.w fun i => (s.lane rs i).toNat := by
  obtain ⟨t, ht, hp, hstored⟩ := exec_vst_of_fits rs h
  obtain ⟨u, hu, hlen, hmoved⟩ := exec_vld_of_fits rd (State.fits_of_params h hp)
  rw [hp] at hlen hmoved
  refine ⟨t, u, ht, hu, hlen, fun i hi => ?_⟩
  have hcell := eq_of_movedFrom (hmoved i hi) (hstored i hi)
  exact ⟨by rw [State.lane, hcell], by rw [hcell]⟩

theorem wtl_after_tld (rd ra : VReg) {addr : BitVec 16} {s : State} (h : s.fits addr 256 = true) :
    ∃ t u, exec (.tld addr) s = .next t ∧ exec (.wtl rd ra 4) t = .next u ∧
      ∀ i b, i < s.params.w → s.buf.read (addr.toNat + (s.lane ra i).toNat) = some b → u.lane rd i = b := by
  obtain ⟨t, ht, hp, hv, hmoved⟩ := exec_tld_of_fits h
  obtain ⟨u, hu, hlane⟩ := exec_wtl_user rd ra t
  have hindex (i : Nat) : t.lane ra i = s.lane ra i := by simp only [State.lane, State.laneCell, hv]
  refine ⟨t, u, ht, hu, fun i b hi hb => ?_⟩
  rw [hlane i (hp ▸ hi), hindex, eq_of_movedFrom (hmoved _ (s.lane ra i).isLt) hb]

section

variable {addr a : BitVec 16} {s : State} (h : s.fits addr s.params.w = true) (hlo : addr.toNat ≤ a.toNat)
  (hhi : a.toNat < addr.toNat + s.params.w)
include h hlo hhi

theorem vld_after_bufWrite (rd : VReg) (b : Byte) :
    ∃ t u, hostBufWrite a b s = .next t ∧ exec (.vld rd addr) t = .next u ∧
      u.laneCell rd (a.toNat - addr.toNat) = { val := b, written := true } := by
  have hin : a.toNat < s.params.bufSize := hhi.trans_le ((s.fits_iff _ _).1 h)
  obtain ⟨t, ht, hframe, hread, -⟩ := (bufferPortReachesOneByte s a b).1 hin |>.1
  have hp : t.params = s.params := by rw [hframe]
  obtain ⟨u, hu, -, hmoved⟩ := exec_vld_of_fits rd (State.fits_of_params h hp)
  refine ⟨t, u, ht, hu, eq_of_movedFrom (hmoved _ (by rw [hp]; omega)) ?_⟩
  rwa [Nat.add_sub_cancel' hlo]

theorem bufRead_after_vst (rs : VReg) :
    ∃ t u, exec (.vst rs addr) s = .next t ∧ hostBufRead a t = .next u ∧
      u.reply = some (.byte (s.lane rs (a.toNat - addr.toNat))) := by
  have hin : a.toNat < s.params.bufSize := hhi.trans_le ((s.fits_iff _ _).1 h)
  obtain ⟨t, ht, hp, hstored⟩ := exec_vst_of_fits rs h
  have hread := hstored (a.toNat - addr.toNat) (by omega)
  rw [Nat.add_sub_cancel' hlo] at hread
  exact ⟨t, _, ht, hostBufRead_of_read (by rwa [hp]) hread, rfl⟩

end

/-- Settles O42: one lemma per consequence that R68 lists. -/
theorem laterAccessesSeeEarlierWrites : Obligations.LaterAccessesSeeEarlierWrites :=
  ⟨fun rs rd _ _ h => vld_after_vst rs rd h, fun rd ra _ _ h => wtl_after_tld rd ra h,
    fun rd _ _ b _ h hlo hhi => vld_after_bufWrite h hlo hhi rd b,
    fun rs _ _ _ h hlo hhi => bufRead_after_vst h hlo hhi rs⟩

end Sys2Proof.Machine
end

section
/-! The opcode map of R93 read both ways (O1 to O5): the operands come back out of each format's word, and a row's mask
leaves of its words the opcode alone. So `decode` and `encode` are inverse to each other, and a word that is the word of
no command raises IllegalCommand. -/

namespace Sys2Proof

open Laws

/-! ### The operands come back out of each format's word (R82 to R90) -/

/-- A field of a word that is a join of two is two neighbouring fields; `extract_join` read backwards. -/
theorem extract_split {w : Word} {b : Nat} (m n : Nat) {p : BitVec m} {q : BitVec n}
    (h : w.extractLsb' b (m + n) = p ++ q) : w.extractLsb' (b + n) m = p ∧ w.extractLsb' b n = q := by
  rw [extract_join rfl rfl rfl] at h
  have hp := congrArg (BitVec.extractLsb' n m) h
  have hq := congrArg (BitVec.extractLsb' 0 n) h
  simp only [BitVec.extractLsb'_append_eq_left] at hp
  simp only [BitVec.extractLsb'_append_eq_right] at hq
  exact ⟨hp, hq⟩

theorem vregField_of_extract {w : Word} {lsb : Nat} {r : VReg} (h : w.extractLsb' lsb 3 = vregBits r) :
    vregField w lsb = r :=
  congrArg BitVec.toFin h

theorem kregField_of_extract {w : Word} {lsb : Nat} {k : KReg} (h : w.extractLsb' lsb 2 = kregBits k) :
    kregField w lsb = k :=
  congrArg BitVec.toFin h

theorem halfBit_injective : Function.Injective halfBit
  | .lo, .lo, _ => rfl
  | .hi, .hi, _ => rfl

theorem halfField_of_extract {w : Word} {half : Half} (h : w.extractLsb' 16 1 = halfBit half) :
    halfField w = half :=
  halfBit_injective ((extract_halfField w).symm.trans h)

theorem formatB_operands (op : BitVec 6) (lo hi : BitVec 9) :
    (formatB op lo hi).extractLsb' 9 9 = lo ∧ (formatB op lo hi).extractLsb' 0 9 = hi := by
  obtain ⟨h, hhi⟩ := extract_split 23 9 (w := formatB op lo hi) BitVec.extractLsb'_eq_self
  exact ⟨(extract_split 14 9 h).2, hhi⟩

theorem formatRT_operands (op : BitVec 6) (rd ra : VReg) (tsel : BitVec 3) (half : BitVec 1) :
    vregField (formatRT op rd ra tsel half) 23 = rd ∧ vregField (formatRT op rd ra tsel half) 20 = ra ∧
      tselField (formatRT op rd ra tsel half) = tsel ∧ (formatRT op rd ra tsel half).extractLsb' 16 1 = half := by
  obtain ⟨h, -⟩ := extract_split 16 16 (w := formatRT op rd ra tsel half) BitVec.extractLsb'_eq_self
  obtain ⟨h, hhalf⟩ := extract_split 15 1 h
  obtain ⟨h, htsel⟩ := extract_split 12 3 h
  obtain ⟨h, hra⟩ := extract_split 9 3 h
  obtain ⟨-, hrd⟩ := extract_split 6 3 h
  exact ⟨vregField_of_extract hrd, vregField_of_extract hra, htsel, hhalf⟩

theorem formatRK_operands (op : BitVec 6) (kd : KReg) (ra : VReg) :
    kregField (formatRK op kd ra) 23 = kd ∧ vregField (formatRK op kd ra) 20 = ra := by
  obtain ⟨h, -⟩ := extract_split 12 20 (w := formatRK op kd ra) BitVec.extractLsb'_eq_self
  obtain ⟨h, hra⟩ := extract_split 9 3 h
  obtain ⟨-, hkd⟩ := extract_split 7 2 h
  exact ⟨kregField_of_extract hkd, vregField_of_extract hra⟩

theorem formatRB_operands (op : BitVec 6) (rd ra rb : VReg) (kc : KReg) :
    vregField (formatRB op rd ra rb kc) 23 = rd ∧ vregField (formatRB op rd ra rb kc) 20 = ra ∧
      vregField (formatRB op rd ra rb kc) 17 = rb ∧ kregField (formatRB op rd ra rb kc) 15 = kc := by
  obtain ⟨h, -⟩ := extract_split 17 15 (w := formatRB op rd ra rb kc) BitVec.extractLsb'_eq_self
  obtain ⟨h, hkc⟩ := extract_split 15 2 h
  obtain ⟨h, hrb⟩ := extract_split 12 3 h
  obtain ⟨h, hra⟩ := extract_split 9 3 h
  obtain ⟨-, hrd⟩ := extract_split 6 3 h
  exact ⟨vregField_of_extract hrd, vregField_of_extract hra, vregField_of_extract hrb, kregField_of_extract hkc⟩

theorem formatR2_operands (op : BitVec 6) (rd ra : VReg) :
    vregField (formatR2 op rd ra) 23 = rd ∧ vregField (formatR2 op rd ra) 20 = ra := by
  obtain ⟨h, -⟩ := extract_split 12 20 (w := formatR2 op rd ra) BitVec.extractLsb'_eq_self
  obtain ⟨h, hra⟩ := extract_split 9 3 h
  obtain ⟨-, hrd⟩ := extract_split 6 3 h
  exact ⟨vregField_of_extract hrd, vregField_of_extract hra⟩

theorem formatR3_operands (op : BitVec 6) (rd ra rb : VReg) :
    vregField (formatR3 op rd ra rb) 23 = rd ∧ vregField (formatR3 op rd ra rb) 20 = ra ∧
      vregField (formatR3 op rd ra rb) 17 = rb := by
  obtain ⟨h, -⟩ := extract_split 15 17 (w := formatR3 op rd ra rb) BitVec.extractLsb'_eq_self
  obtain ⟨h, hrb⟩ := extract_split 12 3 h
  obtain ⟨h, hra⟩ := extract_split 9 3 h
  obtain ⟨-, hrd⟩ := extract_split 6 3 h
  exact ⟨vregField_of_extract hrd, vregField_of_extract hra, vregField_of_extract hrb⟩

theorem formatI_operands (op : BitVec 6) (rd : VReg) (imm8 : BitVec 8) :
    vregField (formatI op rd imm8) 23 = rd ∧ (formatI op rd imm8).extractLsb' 0 8 = imm8 := by
  obtain ⟨h, himm⟩ := extract_split 24 8 (w := formatI op rd imm8) BitVec.extractLsb'_eq_self
  obtain ⟨h, -⟩ := extract_split 9 15 h
  exact ⟨vregField_of_extract (extract_split 6 3 h).2, himm⟩

theorem formatM_operands (op : BitVec 6) (r : VReg) (addr : BitVec 16) :
    vregField (formatM op r addr) 23 = r ∧ addrField (formatM op r addr) = addr := by
  obtain ⟨h, haddr⟩ := extract_split 16 16 (w := formatM op r addr) BitVec.extractLsb'_eq_self
  obtain ⟨h, -⟩ := extract_split 9 7 h
  exact ⟨vregField_of_extract (extract_split 6 3 h).2, haddr⟩

/-! ### The mask of a row leaves the opcode of its words and nothing else (R93)

Every match value of R93 is the row's opcode followed by zeros, `formatN op`. -/

theorem formatB_and_mask (op : BitVec 6) (lo hi : BitVec 9) : formatB op lo hi &&& 0xFFFC0000 = formatN op := by
  refine BitVec.eq_of_getLsbD_eq fun i hi => ?_
  simp only [BitVec.getLsbD_and, formatB_bit, formatN_bit]
  interval_cases i <;> simp

theorem formatRT_and_mask (op : BitVec 6) (rd ra : VReg) (tsel : BitVec 3) (half : BitVec 1) :
    formatRT op rd ra tsel half &&& 0xFC00FFFF = formatN op := by
  refine BitVec.eq_of_getLsbD_eq fun i hi => ?_
  simp only [BitVec.getLsbD_and, formatRT_bit, formatN_bit]
  interval_cases i <;> simp

/-- WTL's mask covers the half bit too, which its format leaves zero (R84, R95). -/
theorem formatRT_zero_and_mask (op : BitVec 6) (rd ra : VReg) (tsel : BitVec 3) :
    formatRT op rd ra tsel 0 &&& 0xFC01FFFF = formatN op := by
  refine BitVec.eq_of_getLsbD_eq fun i hi => ?_
  simp only [BitVec.getLsbD_and, formatRT_bit, formatN_bit]
  interval_cases i <;> simp

theorem formatRK_and_mask (op : BitVec 6) (kd : KReg) (ra : VReg) : formatRK op kd ra &&& 0xFE0FFFFF = formatN op := by
  refine BitVec.eq_of_getLsbD_eq fun i hi => ?_
  simp only [BitVec.getLsbD_and, formatRK_bit, formatN_bit]
  interval_cases i <;> simp

theorem formatRB_and_mask (op : BitVec 6) (rd ra rb : VReg) (kc : KReg) :
    formatRB op rd ra rb kc &&& 0xFC007FFF = formatN op := by
  refine BitVec.eq_of_getLsbD_eq fun i hi => ?_
  simp only [BitVec.getLsbD_and, formatRB_bit, formatN_bit]
  interval_cases i <;> simp

theorem formatR2_and_mask (op : BitVec 6) (rd ra : VReg) : formatR2 op rd ra &&& 0xFC0FFFFF = formatN op := by
  refine BitVec.eq_of_getLsbD_eq fun i hi => ?_
  simp only [BitVec.getLsbD_and, formatR2_bit, formatN_bit]
  interval_cases i <;> simp

theorem formatR3_and_mask (op : BitVec 6) (rd ra rb : VReg) : formatR3 op rd ra rb &&& 0xFC01FFFF = formatN op := by
  refine BitVec.eq_of_getLsbD_eq fun i hi => ?_
  simp only [BitVec.getLsbD_and, formatR3_bit, formatN_bit]
  interval_cases i <;> simp

theorem formatI_and_mask (op : BitVec 6) (rd : VReg) (imm8 : BitVec 8) :
    formatI op rd imm8 &&& 0xFC7FFF00 = formatN op := by
  refine BitVec.eq_of_getLsbD_eq fun i hi => ?_
  simp only [BitVec.getLsbD_and, formatI_bit, formatN_bit]
  interval_cases i <;> simp

theorem formatM_and_mask (op : BitVec 6) (r : VReg) (addr : BitVec 16) :
    formatM op r addr &&& 0xFC7F0000 = formatN op := by
  refine BitVec.eq_of_getLsbD_eq fun i hi => ?_
  simp only [BitVec.getLsbD_and, formatM_bit, formatN_bit]
  interval_cases i <;> simp

/-- TLD's mask covers the register field too, which its format leaves zero (R90, R95). -/
theorem formatM_zero_and_mask (op : BitVec 6) (addr : BitVec 16) :
    formatM op 0 addr &&& 0xFFFF0000 = formatN op := by
  refine BitVec.eq_of_getLsbD_eq fun i hi => ?_
  simp only [BitVec.getLsbD_and, formatM_bit, formatN_bit]
  interval_cases i <;> simp

/-! ### Decoding and encoding are inverse to each other -/

/-- Bits [31:26] of a command's word are the opcode of its row (R81, R93). -/
theorem opField_encode (i : Instr) : opField (encode i) = opcodeOf i := by
  cases i with
  | nop => exact EncodeOpcode.nop
  | build lo hi => exact EncodeOpcode.build lo hi
  | lookup128 rd ra tsel half => exact EncodeOpcode.lookup128 rd ra tsel half
  | highbitmask kd ra => exact EncodeOpcode.highbitmask kd ra
  | blend rd ra rb kc => exact EncodeOpcode.blend rd ra rb kc
  | wtl rd ra tsel => exact EncodeOpcode.wtl rd ra tsel
  | bitwidth rd ra => exact EncodeOpcode.bitwidth rd ra
  | mulhi rd ra rb => exact EncodeOpcode.mulhi rd ra rb
  | vadd rd ra rb => exact EncodeOpcode.vadd rd ra rb
  | vsub rd ra rb => exact EncodeOpcode.vsub rd ra rb
  | vsrlv rd ra rb => exact EncodeOpcode.vsrlv rd ra rb
  | quotient rd ra rb => exact EncodeOpcode.quotient rd ra rb
  | vsplat rd imm8 => exact EncodeOpcode.vsplat rd imm8
  | vld rd addr => exact EncodeOpcode.vld rd addr
  | vst rs addr => exact EncodeOpcode.vst rs addr
  | tld addr => exact EncodeOpcode.tld addr

/-- A row whose mask leaves its match value answers its own command. -/
theorem matchRow_of_match {w mask value : Word} {i j : Instr} (hm : w &&& mask = value) (hi : i = j) :
    matchRow w mask value i = .ok j :=
  (matchRow_eq_ok w mask value i j).2 ⟨hm, hi⟩

/-- Settles O1: the opcode picks the row, the row's mask matches, and each operand is read back from its field. -/
theorem decodeOfEncodeIsTheCommand : Obligations.DecodeOfEncodeIsTheCommand := by
  intro i
  rw [decode, opField_encode]
  cases i with
  | nop => rfl
  | build lo hi => exact matchRow_of_match (formatB_and_mask ..) (by simp only [encode, formatB_operands])
  | lookup128 rd ra tsel half =>
    obtain ⟨hrd, hra, htsel, hhalf⟩ := formatRT_operands 0x02 rd ra tsel (halfBit half)
    exact matchRow_of_match (formatRT_and_mask ..)
      (by simp only [encode, hrd, hra, htsel, halfField_of_extract hhalf])
  | highbitmask kd ra => exact matchRow_of_match (formatRK_and_mask ..) (by simp only [encode, formatRK_operands])
  | blend rd ra rb kc => exact matchRow_of_match (formatRB_and_mask ..) (by simp only [encode, formatRB_operands])
  | wtl rd ra tsel => exact matchRow_of_match (formatRT_zero_and_mask ..) (by simp only [encode, formatRT_operands])
  | bitwidth rd ra => exact matchRow_of_match (formatR2_and_mask ..) (by simp only [encode, formatR2_operands])
  | mulhi rd ra rb | vadd rd ra rb | vsub rd ra rb | vsrlv rd ra rb | quotient rd ra rb =>
    exact matchRow_of_match (formatR3_and_mask ..) (by simp only [encode, formatR3_operands])
  | vsplat rd imm8 => exact matchRow_of_match (formatI_and_mask ..) (by simp only [encode, formatI_operands])
  | vld rd addr | vst rd addr =>
    exact matchRow_of_match (formatM_and_mask ..) (by simp only [encode, formatM_operands])
  | tld addr => exact matchRow_of_match (formatM_zero_and_mask ..) (by simp only [encode, formatM_operands])

/-- A word decodes to the command whose word it is, and to no other (R103). -/
theorem decode_eq_ok_iff {w : Word} {i : Instr} : decode w = .ok i ↔ encode i = w := by
  refine ⟨encode_of_decode, ?_⟩
  rintro rfl
  exact decodeOfEncodeIsTheCommand i

/-! ### The words of each format are the words its mask and match describe -/

section

variable {w mask : Word} {op : BitVec 6}

theorem opcode_of_match (h : w &&& mask = formatN op) (hm : mask.extractLsb' 26 6 = BitVec.allOnes 6) :
    w.extractLsb' 26 6 = op :=
  (extract_of_match h 26 6 hm).trans (extract_split 6 26 (w := formatN op) BitVec.extractLsb'_eq_self).1

theorem zeros_of_match (h : w &&& mask = formatN op) (lsb n : Nat) (hm : mask.extractLsb' lsb n = BitVec.allOnes n)
    (hn : lsb + n ≤ 26) : w.extractLsb' lsb n = 0#n := by
  rw [extract_of_match h lsb n hm]
  refine BitVec.eq_of_getLsbD_eq fun i hi => ?_
  simp [formatN_bit, show lsb + i < 26 by omega]

end

section

variable (w : Word) (op : BitVec 6)

theorem exists_formatB_iff : (∃ lo hi, formatB op lo hi = w) ↔ w &&& 0xFFFC0000 = formatN op := by
  constructor
  · rintro ⟨lo, hi, rfl⟩
    exact formatB_and_mask op lo hi
  · exact fun m => ⟨_, _, formatB_fields (opcode_of_match m rfl) (zeros_of_match m 18 8 rfl (by decide))⟩

theorem exists_formatRT_iff :
    (∃ rd ra tsel half, formatRT op rd ra tsel (halfBit half) = w) ↔ w &&& 0xFC00FFFF = formatN op := by
  constructor
  · rintro ⟨rd, ra, tsel, half, rfl⟩
    exact formatRT_and_mask op rd ra tsel (halfBit half)
  · exact fun m => ⟨_, _, _, _, formatRT_fields (opcode_of_match m rfl) (extract_halfField w)
      (zeros_of_match m 0 16 rfl (by decide))⟩

theorem exists_formatRT_zero_iff :
    (∃ rd ra tsel, formatRT op rd ra tsel 0 = w) ↔ w &&& 0xFC01FFFF = formatN op := by
  constructor
  · rintro ⟨rd, ra, tsel, rfl⟩
    exact formatRT_zero_and_mask op rd ra tsel
  · exact fun m => ⟨_, _, _, formatRT_fields (opcode_of_match m rfl) (zeros_of_match m 16 1 rfl (by decide))
      (zeros_of_match m 0 16 rfl (by decide))⟩

theorem exists_formatRK_iff : (∃ kd ra, formatRK op kd ra = w) ↔ w &&& 0xFE0FFFFF = formatN op := by
  constructor
  · rintro ⟨kd, ra, rfl⟩
    exact formatRK_and_mask op kd ra
  · exact fun m => ⟨_, _, formatRK_fields (opcode_of_match m rfl) (zeros_of_match m 25 1 rfl (by decide))
      (zeros_of_match m 0 20 rfl (by decide))⟩

theorem exists_formatRB_iff : (∃ rd ra rb kc, formatRB op rd ra rb kc = w) ↔ w &&& 0xFC007FFF = formatN op := by
  constructor
  · rintro ⟨rd, ra, rb, kc, rfl⟩
    exact formatRB_and_mask op rd ra rb kc
  · exact fun m => ⟨_, _, _, _, formatRB_fields (opcode_of_match m rfl) (zeros_of_match m 0 15 rfl (by decide))⟩

theorem exists_formatR2_iff : (∃ rd ra, formatR2 op rd ra = w) ↔ w &&& 0xFC0FFFFF = formatN op := by
  constructor
  · rintro ⟨rd, ra, rfl⟩
    exact formatR2_and_mask op rd ra
  · exact fun m => ⟨_, _, formatR2_fields (opcode_of_match m rfl) (zeros_of_match m 0 20 rfl (by decide))⟩

theorem exists_formatR3_iff : (∃ rd ra rb, formatR3 op rd ra rb = w) ↔ w &&& 0xFC01FFFF = formatN op := by
  constructor
  · rintro ⟨rd, ra, rb, rfl⟩
    exact formatR3_and_mask op rd ra rb
  · exact fun m => ⟨_, _, _, formatR3_fields (opcode_of_match m rfl) (zeros_of_match m 0 17 rfl (by decide))⟩

theorem exists_formatI_iff : (∃ rd imm8, formatI op rd imm8 = w) ↔ w &&& 0xFC7FFF00 = formatN op := by
  constructor
  · rintro ⟨rd, imm8, rfl⟩
    exact formatI_and_mask op rd imm8
  · exact fun m => ⟨_, _, formatI_fields (opcode_of_match m rfl) (zeros_of_match m 8 15 rfl (by decide))⟩

theorem exists_formatM_iff : (∃ r addr, formatM op r addr = w) ↔ w &&& 0xFC7F0000 = formatN op := by
  constructor
  · rintro ⟨r, addr, rfl⟩
    exact formatM_and_mask op r addr
  · exact fun m => ⟨_, _, formatM_fields (opcode_of_match m rfl) rfl (zeros_of_match m 16 7 rfl (by decide))⟩

theorem exists_formatM_zero_iff : (∃ addr, formatM op 0 addr = w) ↔ w &&& 0xFFFF0000 = formatN op := by
  constructor
  · rintro ⟨addr, rfl⟩
    exact formatM_zero_and_mask op addr
  · exact fun m => ⟨_, formatM_fields (opcode_of_match m rfl) (zeros_of_match m 23 3 rfl (by decide))
      (zeros_of_match m 16 7 rfl (by decide))⟩

end

/-- Settles O3: a word decodes as a mnemonic when it is a word of that row's format and opcode, and those words are the
ones the row's mask and match describe. -/
theorem decodesExactlyByMaskAndMatch : Obligations.DecodesExactlyByMaskAndMatch := by
  intro w
  simp only [decode_eq_ok_iff]
  refine ⟨?_, exists_formatB_iff w 0x01, exists_formatRT_iff w 0x02, exists_formatRK_iff w 0x03,
    exists_formatRB_iff w 0x04, exists_formatRT_zero_iff w 0x05, exists_formatR2_iff w 0x06,
    exists_formatR3_iff w 0x07, exists_formatR3_iff w 0x08, exists_formatR3_iff w 0x09, exists_formatR3_iff w 0x0A,
    exists_formatR3_iff w 0x0B, exists_formatI_iff w 0x0C, exists_formatM_iff w 0x0D, exists_formatM_iff w 0x0E,
    exists_formatM_zero_iff w 0x0F⟩
  rw [show (0xFFFFFFFF : Word) = BitVec.allOnes 32 from rfl, BitVec.and_allOnes]
  exact eq_comm

end Sys2Proof

namespace Sys2Proof.Machine

open Sys2Proof Sys2Proof.Safety Laws

/-! ### Words that are no command -/

/-- The word of no command raises IllegalCommand on a block that is not halted (R94, R95, R103). -/
theorem issue_illegal_of_no_command {w : Word} (hw : ∀ i, encode i ≠ w) {s : State} (hh : s.halted = false) :
    ∃ t, issue w s = .next t ∧ ErrorEntered w .illegalCommand 0 s t := by
  rcases issue_cases w s with ⟨hh', -⟩ | ⟨-, i, -, hi, -⟩ | ⟨-, e⟩
  · simp [hh] at hh'
  · exact absurd hi (hw i)
  · exact ⟨_, e, s.raiseError_entered w .illegalCommand 0⟩

/-- Settles O2. -/
theorem everyWordIsOneCommandOrIllegal : Obligations.EveryWordIsOneCommandOrIllegal := by
  intro w
  by_cases h : ∃ i, encode i = w
  · obtain ⟨i, rfl⟩ := h
    have hd := decodeOfEncodeIsTheCommand i
    refine .inl ⟨i, hd, rfl, fun j hj => ?_, fun s hh => issue_of_decode hh hd⟩
    have hji : Except.ok j = Except.ok i := (decode_eq_ok_iff.2 hj).symm.trans hd
    exact Except.ok.inj hji
  · have hw := not_exists.1 h
    exact .inr ⟨hw, fun s hh => issue_illegal_of_no_command hw hh⟩

/-- The assigned opcodes are 0x00 to 0x0F (R93, R94). -/
theorem opcodeOf_lt (i : Instr) : (opcodeOf i).toNat < 0x10 := by
  cases i <;> simp [opcodeOf]

/-- Settles O4: no command's opcode is reserved. -/
theorem reservedOpcodesRaiseIllegalCommand : Obligations.ReservedOpcodesRaiseIllegalCommand := by
  intro w s hop hh
  refine issue_illegal_of_no_command ?_ hh
  rintro i rfl
  rw [opField_encode] at hop
  exact absurd (opcodeOf_lt i) hop.not_gt

/-! ### The worked encodings (R104) -/

/-- A BUILD that starts at divisor 0 is rejected with that divisor (R118). -/
theorem exec_build_zero (hi : BitVec 9) (s : State) :
    ∃ t, exec (.build 0 hi) s = .next t ∧ ErrorEntered (encode (.build 0 hi)) .invalidDivisor 0 s t :=
  ⟨_, by simp [exec, execBuild, firstBadDivisor], s.raiseError_entered _ _ 0⟩

/-- Settles O5: each word is the encoder's word of its command, and that decodes to it. -/
theorem workedEncodingsDecode : Obligations.WorkedEncodingsDecode := by
  simp only [Obligations.WorkedEncodingsDecode, decode_eq_ok_iff]
  exact ⟨rfl, rfl, rfl, exec_build_zero 255, rfl, rfl, rfl, rfl, rfl, rfl, rfl, rfl, rfl, rfl, rfl⟩

end Sys2Proof.Machine
end

section
/-! The expansion `wtl.prim` of R101 (O34): what each of its commands leaves in the lanes and mask bits that a later one
reads, and that the second lookup finds the table as the first one built it. -/

namespace Sys2Proof.Machine

open Sys2Proof Sys2Proof.Safety

theorem exists_slotOf {tsel : BitVec 3} (h : slotLegal tsel = true) : ∃ slot, slotOf tsel = some slot := by
  refine Option.ne_none_iff_exists'.1 fun hn => ?_
  simp [(slotOf_eq_none tsel).1 hn] at h

/-- A command leaves the lanes of every register but its destination (R43). -/
theorem lane_of_effect {i : Instr} {s t : State} (he : Effect i s t) {r : VReg} (hr : writesV i ≠ some r) (j : Nat) :
    t.lane r j = s.lane r j := by
  rw [State.lane, State.laneCell, v_of_effect he hr]
  rfl

theorem execAll_cons {i : Instr} {s t : State} (h : exec i s = .next t) (is : List Instr) :
    execAll (i :: is) s = execAll is t := by
  rw [execAll, h]

/-- The lazy build for a slot is due only while MT_VALID = 0 (R119). -/
theorem State.lazyBuildFor_eq_self {s : State} {slot : Slot} (h : slot.isMagic = true → s.mtValid = true) :
    s.lazyBuildFor slot = s := by
  unfold State.lazyBuildFor State.lazyBuild
  split_ifs with hm hv
  · rfl
  · exact absurd (h hm) hv
  · rfl

/-- The entries of a slot as a lookup of it reads them: after the lazy build, if the slot needs it (R119). -/
def builtEntry (s : State) (slot : Slot) : Nat → Byte := (s.lazyBuildFor slot).tableEntry slot

/-- A lookup leaves the table that the next lookup of the slot reads as it read it itself. -/
theorem builtEntry_lookup (s : State) (slot : Slot) (rd : VReg) (f : Nat → Byte) :
    builtEntry ((s.lazyBuildFor slot).writeV rd f).complete slot = builtEntry s slot := by
  have hbuilt : slot.isMagic = true → ((s.lazyBuildFor slot).writeV rd f).complete.mtValid = true :=
    fun hm => s.lazyBuildFor_mtValid hm
  rw [builtEntry, State.lazyBuildFor_eq_self hbuilt]
  cases slot <;> rfl

/-! ### What each of the four commands, and WTL, leaves for the next -/

section

variable (s : State)

theorem exec_lookup128 (rd ra : VReg) {tsel : BitVec 3} {slot : Slot} (half : Half) (hs : slotOf tsel = some slot) :
    ∃ t, exec (.lookup128 rd ra tsel half) s = .next t ∧ builtEntry t slot = builtEntry s slot ∧
      ∀ i, i < s.params.w → t.lane rd i = lookup128 (tableHalf (builtEntry s slot) half) (s.lane ra i) := by
  refine ⟨_, by simp only [exec, execLookup128, hs]; rfl, builtEntry_lookup s slot rd _, fun i hi => ?_⟩
  exact State.lane_writeV_same _ _ _ (by simpa using hi)

theorem exec_highbitmask (kd : KReg) (ra : VReg) :
    ∃ t, exec (.highbitmask kd ra) s = .next t ∧
      ∀ i, i < s.params.w → t.maskBit kd i = highBitMask (s.lane ra i) :=
  ⟨_, rfl, fun _ hi => congrArg Stored.val (s.maskCell_writeK_same kd _ hi)⟩

theorem exec_blend (rd ra rb : VReg) (kc : KReg) :
    ∃ t, exec (.blend rd ra rb kc) s = .next t ∧ t.v[rd] = (List.range s.params.w).map fun i =>
      { val := blendLane (s.maskBit kc i) (s.lane ra i) (s.lane rb i), written := true } :=
  ⟨_, rfl, by simp⟩

theorem exec_wtl (rd ra : VReg) {tsel : BitVec 3} {slot : Slot} (hs : slotOf tsel = some slot) :
    ∃ t, exec (.wtl rd ra tsel) s = .next t ∧ t.v[rd] = (List.range s.params.w).map fun i =>
      { val := wideLookup (builtEntry s slot) (s.lane ra i), written := true } :=
  ⟨_, by simp only [exec, execWtl, hs]; rfl, by simp [builtEntry]⟩

end

/-- Settles O34: the two lookups give the lanes that `wideLookup` blends, HIGHBITMASK its mask, and distinctness keeps
each of them until BLEND reads it (R101, R136). -/
theorem wtlPrimExpansionAgreesWithWtl : Obligations.WtlPrimExpansionAgreesWithWtl := by
  intro vd va vt kt tsel s hlegal hvtvd hvtva hvdva
  obtain ⟨slot, hs⟩ := exists_slotOf hlegal
  obtain ⟨a, ha, hatbl, halo⟩ := exec_lookup128 s vt va .lo hs
  obtain ⟨b, hb, -, hbhi⟩ := exec_lookup128 a vd va .hi hs
  obtain ⟨c, hc, hcmask⟩ := exec_highbitmask b kt va
  obtain ⟨d, hd, hdv⟩ := exec_blend c vd vt vd kt
  obtain ⟨u, hu, huv⟩ := exec_wtl s vd va hs
  have ea := effect_of_exec ha
  have eb := effect_of_exec hb
  have ec := effect_of_exec hc
  have ed := effect_of_exec hd
  have pa : a.params = s.params := (hostKept_of_effect ea).params
  have pb : b.params = s.params := (hostKept_of_effect eb).params.trans pa
  have pc : c.params = s.params := (hostKept_of_effect ec).params.trans pb
  refine ⟨d, u, ?_, hu, ?_, ?_⟩
  · rw [execAll_cons ha, execAll_cons hb, execAll_cons hc, execAll_cons hd, execAll]
  · rw [hdv, huv, pc]
    refine List.map_congr_left fun i hi => ?_
    have hi : i < s.params.w := List.mem_range.1 hi
    have aindex : a.lane va i = s.lane va i := lane_of_effect ea (by simpa [writesV] using hvtva) i
    have bindex : b.lane va i = s.lane va i :=
      (lane_of_effect eb (by simpa [writesV] using hvdva) i).trans aindex
    have hmask : c.maskBit kt i = highBitMask (s.lane va i) := by rw [hcmask i (pb ▸ hi), bindex]
    have hlo : c.lane vt i = lookup128 (tableHalf (builtEntry s slot) .lo) (s.lane va i) := by
      rw [lane_of_effect ec (by simp [writesV]), lane_of_effect eb (by simpa [writesV] using hvtvd.symm), halo i hi]
    have hhi : c.lane vd i = lookup128 (tableHalf (builtEntry s slot) .hi) (s.lane va i) := by
      rw [lane_of_effect ec (by simp [writesV]), hbhi i (pa ▸ hi), hatbl, aindex]
    rw [hmask, hlo, hhi, wideLookup]
  · rw [cmdcnt_of_effect ed, cmdcnt_of_effect ec, cmdcnt_of_effect eb, cmdcnt_of_effect ea]
    simp [add_assoc]

end Sys2Proof.Machine
end

section
/-! The magic constants (O27 to O29): `l(d)` is the least exponent with `d <= 2^l`, which bounds the numerator of R112, so
that its 16-bit arithmetic is exact; and `256 + m(d)` is the ceiling of `256 * 2^l / d`, so that the finish of R168 on the
triple of `d` divides by `d`. -/

namespace Sys2Proof.Machine

open Sys2Proof

/-! ### The bit width and the exponent `l(d)` (R111, R150) -/

/-- The exponents above a number between two neighbouring powers of two. -/
theorem lt_two_pow_iff_of_bounds {x c : Nat} (hlo : 2 ^ c ≤ x) (hhi : x < 2 ^ (c + 1)) (k : Nat) :
    x < 2 ^ k ↔ c + 1 ≤ k := by
  constructor
  · intro h
    exact (Nat.pow_lt_pow_iff_right Nat.one_lt_two).1 (hlo.trans_lt h)
  · intro h
    exact hhi.trans_le (Nat.pow_le_pow_right Nat.two_pos h)

/-- `bit_width(x)` is the least `k` with `x < 2^k` (R150). -/
theorem bitWidth_le_iff (x : Byte) (k : Nat) : bitWidth x ≤ k ↔ x.toNat < 2 ^ k := by
  have hx := x.isLt
  unfold bitWidth
  split_ifs
  next h0 => simp [h0]
  all_goals
    refine (lt_two_pow_iff_of_bounds ?_ ?_ k).symm <;> omega

theorem magicL_eq_bitWidth (d : Byte) : magicL d = bitWidth (d - 1) := toNat_bitWidthRom (d - 1)

theorem magicL_le_eight (d : Byte) : magicL d ≤ 8 := by
  rw [magicL_eq_bitWidth, bitWidth_le_iff]
  exact (d - 1).isLt

theorem magicL_of_two_pow {d : Byte} {k : Nat} (h : d.toNat = 2 ^ k) : magicL d = k := by
  have hpred : (d - 1).toNat = 2 ^ k - 1 := by
    have := Nat.two_pow_pos k
    bv_omega
  have hle (j : Nat) : magicL d ≤ j ↔ k ≤ j := by
    rw [magicL_eq_bitWidth, bitWidth_le_iff, hpred, ← Nat.pow_le_pow_iff_right Nat.one_lt_two]
    have := Nat.two_pow_pos k
    omega
  exact ((hle k).2 le_rfl).antisymm ((hle _).1 le_rfl)

/-- The powers of two are the divisors that reach their bound `2^l` (R115). -/
theorem exists_eq_two_pow_iff (d : Byte) : (∃ k, d.toNat = 2 ^ k) ↔ d.toNat = 2 ^ magicL d := by
  constructor
  · rintro ⟨k, hk⟩
    rw [magicL_of_two_pow hk, hk]
  · exact fun h => ⟨_, h⟩

section

variable {d : Byte} (hd : d ≠ 0)
include hd

/-- `l(d)` is the least `l` with `d <= 2^l` (R111). -/
theorem magicL_le_iff (k : Nat) : magicL d ≤ k ↔ d.toNat ≤ 2 ^ k := by
  have hpos := BitVec.toNat_pos_of_ne_zero hd
  have hpred : (d - 1).toNat = d.toNat - 1 := by bv_omega
  rw [magicL_eq_bitWidth, bitWidth_le_iff, hpred]
  omega

theorem le_two_pow_magicL : d.toNat ≤ 2 ^ magicL d := (magicL_le_iff hd _).1 le_rfl

theorem magicL_eq_zero_iff : magicL d = 0 ↔ d = 1 := by
  rw [← Nat.le_zero, magicL_le_iff hd]
  bv_omega

/-- A divisor other than 1 lies above half of the power of two that `l(d)` names. -/
theorem two_pow_magicL_bounds (h1 : d ≠ 1) :
    ∃ p, p ≤ 128 ∧ 2 ^ magicL d = 2 * p ∧ p < d.toNat ∧ d.toNat ≤ 2 * p := by
  have h8 := magicL_le_eight d
  have hle := le_two_pow_magicL hd
  cases hl : magicL d with
  | zero => exact absurd ((magicL_eq_zero_iff hd).1 hl) h1
  | succ k =>
    have hp : 2 ^ k ≤ 2 ^ 7 := Nat.pow_le_pow_right Nat.two_pos (by omega)
    have hgt : ¬d.toNat ≤ 2 ^ k := by rw [← magicL_le_iff hd]; omega
    rw [hl, Nat.pow_succ'] at hle
    exact ⟨2 ^ k, hp, Nat.pow_succ', by omega, hle⟩

end

/-! ### The multiplier `m(d)` (R112) -/

/-- The numerator of R112 in exact arithmetic. -/
def magicNumerator (d : Byte) : Nat := (2 ^ magicL d - d.toNat) * 256 + (d.toNat - 1)

/-- The largest numerator stands at the smallest divisor above 128 (R112). -/
theorem magicNumerator_129 : magicNumerator 129 = 32640 := rfl

section

variable {d : Byte} (hd : d ≠ 0)
include hd

theorem magicNumerator_le : magicNumerator d ≤ 32640 := by
  unfold magicNumerator
  by_cases h1 : d = 1
  · subst h1; decide
  · obtain ⟨p, hp, hL, hlo, hhi⟩ := two_pow_magicL_bounds hd h1
    omega

/-- The quotient of R112 fits the eight bits that are kept. -/
theorem magicNumerator_lt : magicNumerator d < 254 * d.toNat := by
  unfold magicNumerator
  by_cases h1 : d = 1
  · subst h1; decide
  · obtain ⟨p, hp, hL, hlo, hhi⟩ := two_pow_magicL_bounds hd h1
    omega

/-- No step of the numerator's 16-bit arithmetic wraps (R112). -/
theorem toNat_numerator16 :
    (((1#16 <<< magicL d) - d.setWidth 16) <<< 8 + (d.setWidth 16 - 1#16)).toNat = magicNumerator d := by
  have hnum := magicNumerator_le hd
  have hle := le_two_pow_magicL hd
  have hpos := BitVec.toNat_pos_of_ne_zero hd
  have hpow : 2 ^ magicL d ≤ 2 ^ 8 := Nat.pow_le_pow_right Nat.two_pos (magicL_le_eight d)
  have hd16 : (d.setWidth 16).toNat = d.toNat := BitVec.toNat_setWidth_of_le (by decide)
  have hone : (1#16 <<< magicL d).toNat = 2 ^ magicL d := by
    rw [BitVec.toNat_shiftLeft, Nat.shiftLeft_eq, BitVec.toNat_ofNat]
    omega
  have hsub : ((1#16 <<< magicL d) - d.setWidth 16).toNat = 2 ^ magicL d - d.toNat := by
    rw [BitVec.toNat_sub_of_le (by rw [BitVec.le_def]; omega), hone, hd16]
  have hpred : (d.setWidth 16 - 1#16).toNat = d.toNat - 1 := by bv_omega
  unfold magicNumerator at hnum ⊢
  rw [BitVec.toNat_add, BitVec.toNat_shiftLeft, Nat.shiftLeft_eq, hsub, hpred]
  omega

theorem toNat_magicM : (magicM d).toNat = magicNumerator d / d.toNat := by
  have hquot := (Nat.div_lt_iff_lt_mul (BitVec.toNat_pos_of_ne_zero hd)).2 (magicNumerator_lt hd)
  rw [magicM, BitVec.toNat_setWidth, BitVec.toNat_udiv, toNat_numerator16 hd,
    BitVec.toNat_setWidth_of_le (by decide), Nat.mod_eq_of_lt (by omega)]

theorem toNat_magicM_le : (magicM d).toNat ≤ 253 := by
  rw [toNat_magicM hd]
  exact Nat.le_of_lt_succ ((Nat.div_lt_iff_lt_mul (BitVec.toNat_pos_of_ne_zero hd)).2 (magicNumerator_lt hd))

theorem toNat_magicM_eq_zero_iff : (magicM d).toNat = 0 ↔ d.toNat = 2 ^ magicL d := by
  have hle := le_two_pow_magicL hd
  have hpos := BitVec.toNat_pos_of_ne_zero hd
  rw [toNat_magicM hd, Nat.div_eq_zero_iff_lt hpos, magicNumerator]
  omega

theorem toNat_magicM_eq_253_iff : (magicM d).toNat = 253 ↔ d = 129 := by
  constructor
  · intro h
    have h1 : d ≠ 1 := by rintro rfl; exact absurd h (by decide)
    obtain ⟨p, hp, hL, hlo, hhi⟩ := two_pow_magicL_bounds hd h1
    rw [toNat_magicM hd] at h
    have hnum : 253 * d.toNat ≤ magicNumerator d :=
      (Nat.le_div_iff_mul_le (BitVec.toNat_pos_of_ne_zero hd)).1 h.ge
    unfold magicNumerator at hnum
    bv_omega
  · rintro rfl
    rfl

/-- `256 + m(d)` is the ceiling of `256 * 2^l / d` (R112). -/
theorem toNat_magicM_bounds :
    256 * 2 ^ magicL d ≤ (256 + (magicM d).toNat) * d.toNat ∧
      (256 + (magicM d).toNat) * d.toNat < 256 * 2 ^ magicL d + d.toNat := by
  have hle := le_two_pow_magicL hd
  have hpos := BitVec.toNat_pos_of_ne_zero hd
  have hmul := Nat.div_mul_le_self (magicNumerator d) d.toNat
  have hlt := Nat.lt_div_mul_add (a := magicNumerator d) hpos
  rw [← toNat_magicM hd, magicNumerator] at hmul hlt
  rw [Nat.add_mul]
  omega

end

/-! ### The shift amounts (R113, R114) -/

theorem toNat_magicSh1 (d : Byte) : (magicSh1 d).toNat = min (magicL d) 1 := by
  rw [magicSh1, BitVec.toNat_ofNat]
  omega

theorem toNat_magicSh2 (d : Byte) : (magicSh2 d).toNat = magicL d - min (magicL d) 1 := by
  have := magicL_le_eight d
  rw [magicSh2, BitVec.toNat_ofNat]
  omega

theorem magicSh1_eq_one {d : Byte} (hd : d ≠ 0) (h1 : d ≠ 1) : magicSh1 d = 1 := by
  have hl : magicL d ≠ 0 := fun h => h1 ((magicL_eq_zero_iff hd).1 h)
  refine BitVec.eq_of_toNat_eq ?_
  rw [toNat_magicSh1, Nat.min_eq_right (Nat.one_le_iff_ne_zero.2 hl)]
  rfl

theorem toNat_magicSh2_eq_seven_iff {d : Byte} (hd : d ≠ 0) : (magicSh2 d).toNat = 7 ↔ 129 ≤ d.toNat := by
  have h8 := magicL_le_eight d
  have h7 := magicL_le_iff hd 7
  rw [toNat_magicSh2]
  omega

/-! ### The finish of R168 -/

theorem toNat_mulhi8 (a b : Byte) : (mulhi8 a b).toNat = a.toNat * b.toNat / 256 := by
  have hab : a.toNat * b.toNat < 256 * 256 := Nat.mul_lt_mul'' a.isLt b.isLt
  have hprod : (a.setWidth 16 * b.setWidth 16).toNat = a.toNat * b.toNat := by
    rw [BitVec.toNat_mul, BitVec.toNat_setWidth_of_le (by decide), BitVec.toNat_setWidth_of_le (by decide),
      Nat.mod_eq_of_lt hab]
  rw [mulhi8, BitVec.extractLsb'_toNat, BitVec.toNat_ushiftRight, hprod, Nat.shiftRight_zero,
    Nat.shiftRight_eq_div_pow]
  omega

/-- The upper byte of a product does not exceed a factor (R173). -/
theorem toNat_mulhi8_le (a b : Byte) : (mulhi8 a b).toNat ≤ b.toNat := by
  rw [toNat_mulhi8]
  exact Nat.div_le_of_le_mul (Nat.mul_le_mul_right _ a.isLt.le)

/-- Neither the difference nor the sum of the finish wraps, whatever the triple (R173). -/
theorem toNat_quotientFinish (n m sh1 sh2 : Byte) :
    (quotientFinish n m sh1 sh2).toNat =
      ((mulhi8 m n).toNat + (n.toNat - (mulhi8 m n).toNat) / 2 ^ sh1.toNat) / 2 ^ sh2.toNat := by
  have ht := toNat_mulhi8_le m n
  have hshift := Nat.div_le_self (n.toNat - (mulhi8 m n).toNat) (2 ^ sh1.toNat)
  have hn := n.isLt
  rw [quotientFinish, BitVec.toNat_ushiftRight, BitVec.toNat_add, BitVec.toNat_ushiftRight,
    BitVec.toNat_sub_of_le ht, Nat.shiftRight_eq_div_pow, Nat.shiftRight_eq_div_pow, Nat.mod_eq_of_lt (by omega)]

/-- The two shifts of the finish are one shift by `l` of `n + t1`: `t1 + (n - t1) / 2` is half of that sum, and for
`l = 0` there is no `t1` (R168). -/
theorem finish_eq_div_two_pow {n t l : Nat} (ht : t ≤ n) (h0 : l = 0 → t = 0) :
    (t + (n - t) / 2 ^ min l 1) / 2 ^ (l - min l 1) = (n + t) / 2 ^ l := by
  cases l with
  | zero => simp [h0 rfl]
  | succ k =>
    have hhalf : t + (n - t) / 2 = (n + t) / 2 := by omega
    rw [Nat.min_eq_right (by omega), pow_one, hhalf, Nat.div_div_eq_div_mul, Nat.add_sub_cancel, Nat.pow_succ']

/-- Multiplying by the ceiling of `N * L / d` and dividing by `N * L` divides by `d`, for every `n < N` (R170). -/
theorem mul_div_eq_div_of_ceil {M d L N n : Nat} (hd : 0 < d) (hdL : d ≤ L) (hlo : N * L ≤ M * d)
    (hhi : M * d < N * L + d) (hn : n < N) : M * n / (N * L) = n / d := by
  refine Nat.div_eq_of_lt_le ?_ ?_
  · calc n / d * (N * L) ≤ n / d * (M * d) := Nat.mul_le_mul_left _ hlo
      _ = M * (n / d * d) := by ring
      _ ≤ M * n := Nat.mul_le_mul_left _ (Nat.div_mul_le_self n d)
  · have hdn : d * n < N * L := by
      rw [mul_comm d]
      exact Nat.mul_lt_mul_of_lt_of_le hn hdL (hd.trans_le hdL)
    refine Nat.lt_of_mul_lt_mul_right (a := d) ?_
    calc M * n * d = M * d * n := by ring
      _ ≤ (N * L + d) * n := Nat.mul_le_mul_right _ hhi.le
      _ = N * L * n + d * n := by ring
      _ < N * L * n + N * L := by omega
      _ = N * L * (n + 1) := by ring
      _ ≤ N * L * ((n / d + 1) * d) := Nat.mul_le_mul_left _ (Nat.lt_mul_of_div_lt (Nat.lt_succ_self _) hd)
      _ = (n / d + 1) * (N * L) * d := by ring

/-- The finish on the triple of `d` is the division by `d` (R122, R170). -/
theorem toNat_quotientFinish_magic (n : Byte) {d : Byte} (hd : d ≠ 0) :
    (quotientFinish n (magicM d) (magicSh1 d) (magicSh2 d)).toNat = n.toNat / d.toNat := by
  obtain ⟨hlo, hhi⟩ := toNat_magicM_bounds hd
  have h0 (hl : magicL d = 0) : (mulhi8 (magicM d) n).toNat = 0 := by
    obtain rfl := (magicL_eq_zero_iff hd).1 hl
    rw [toNat_mulhi8, show (magicM 1).toNat = 0 from rfl, Nat.zero_mul, Nat.zero_div]
  have hsum : n.toNat + (mulhi8 (magicM d) n).toNat = (256 + (magicM d).toNat) * n.toNat / 256 := by
    rw [toNat_mulhi8, Nat.add_mul]
    omega
  rw [toNat_quotientFinish, toNat_magicSh1, toNat_magicSh2, finish_eq_div_two_pow (toNat_mulhi8_le _ n) h0, hsum,
    Nat.div_div_eq_div_mul]
  exact mul_div_eq_div_of_ceil (BitVec.toNat_pos_of_ne_zero hd) (le_two_pow_magicL hd) hlo hhi n.isLt

/-! ### The statements -/

/-- Settles O27. -/
theorem magicConstantFormulas : Obligations.MagicConstantFormulas := by
  refine ⟨fun d hd => ?_, magicNumerator_129, rfl, rfl⟩
  have h8 := magicL_le_eight d
  refine ⟨magicL_eq_bitWidth d, h8, le_two_pow_magicL hd, fun l => (magicL_le_iff hd l).2, toNat_magicM hd,
    magicNumerator_le hd, toNat_magicM_le hd, toNat_magicSh1 d, magicSh1_eq_one hd, ?_, ?_,
    toNat_magicSh2_eq_seven_iff hd⟩
  · rw [toNat_magicSh2, toNat_magicSh1]
  · rw [toNat_magicSh2]
    omega

/-- Settles O28. -/
theorem publishedTableProperties : Obligations.PublishedTableProperties := by
  refine ⟨fun d hd => ?_, fun n d hd => toNat_quotientFinish_magic n hd⟩
  have h8 := magicL_le_eight d
  refine ⟨toNat_magicM_le hd, (toNat_magicM_eq_zero_iff hd).trans (exists_eq_two_pow_iff d).symm,
    toNat_magicM_eq_253_iff hd, ?_, ?_, ?_⟩
  · rw [toNat_magicSh1]
    omega
  · rw [toNat_magicSh2]
    omega
  · rw [toNat_magicSh1, toNat_magicSh2]
    omega

/-- Settles O29: `l(2^k) = k`, so `m` is 0 and the finish divides by `2^k`. -/
theorem powerOfTwoDivisorsShift : Obligations.PowerOfTwoDivisorsShift := by
  refine ⟨⟨rfl, rfl, rfl, rfl⟩, fun n => BitVec.eq_of_toNat_eq ?_, fun k n hk => ?_⟩
  · rw [toNat_quotientFinish_magic n (by decide)]
    exact Nat.div_one n.toNat
  · have hpow : 2 ^ k ≤ 2 ^ 7 := Nat.pow_le_pow_right Nat.two_pos hk
    have hval : (BitVec.ofNat 8 (2 ^ k)).toNat = 2 ^ k := by
      rw [BitVec.toNat_ofNat, Nat.mod_eq_of_lt (by omega)]
    generalize BitVec.ofNat 8 (2 ^ k) = d at hval ⊢
    have hd : d ≠ 0 := by
      have := Nat.two_pow_pos k
      bv_omega
    have hl : magicL d = k := magicL_of_two_pow hval
    refine ⟨BitVec.eq_of_toNat_eq ?_, ?_, ?_, BitVec.eq_of_toNat_eq ?_⟩
    · exact (toNat_magicM_eq_zero_iff hd).2 (by rw [hl, hval])
    · rw [toNat_magicSh1, hl]
    · rw [toNat_magicSh1, toNat_magicSh2, hl]
      omega
    · rw [toNat_quotientFinish_magic n hd, hval, BitVec.toNat_ushiftRight, Nat.shiftRight_eq_div_pow]

end Sys2Proof.Machine
end

section
/-! The MagicTable as the commands see it: BUILD's checks and publication (O7), a rebuild (O41), the lazy build (O39) and
the publication at every step (O58). -/

namespace Sys2Proof

open Laws

/-! ### The bits that BUILD's format marks zero (R83, R95) -/

/-- The bits of a word that its row's mask covers beside the opcode are zero. -/
theorem and_zeros_of_and_mask {w mask zeros : Word} {op : BitVec 6} (h : w &&& mask = formatN op)
    (hmask : mask &&& zeros = zeros) (hop : formatN op &&& zeros = 0) : w &&& zeros = 0 := by
  rw [← hmask, ← BitVec.and_assoc, h, hop]

end Sys2Proof

namespace Sys2Proof.Machine

open Sys2Proof Sys2Proof.Safety Laws

/-- A word whose opcode's commands all have zeros in the bits of `zeros` raises IllegalCommand if it has a 1 there
(R95). -/
theorem reservedBitsRaise_of_encode {op : BitVec 6} {zeros : Word}
    (h : ∀ i, opcodeOf i = op → encode i &&& zeros = 0) : ReservedBitsRaise op zeros := by
  intro w s hop hw hh
  refine issue_illegal_of_no_command ?_ hh
  rintro i rfl
  exact hw (h i ((opField_encode i).symm.trans hop))

theorem reservedBitsRaise_build : ReservedBitsRaise 0x01 0x03FC0000 := by
  refine reservedBitsRaise_of_encode fun i hop => ?_
  cases i with
  | build lo hi => exact and_zeros_of_and_mask (formatB_and_mask 0x01 lo hi) rfl rfl
  | _ => simp [opcodeOf] at hop

/-! ### What a BUILD does, request by request (R118) -/

section

variable {lo hi : BitVec 9} (s : State)

theorem execBuild_reversed (h : hi.toNat < lo.toNat) :
    execBuild lo hi s = .next (s.raiseError (encode (.build lo hi)) .illegalCommand 0) :=
  if_pos h

theorem execBuild_outside (h : ¬hi.toNat < lo.toNat) (hout : lo.toNat = 0 ∨ 255 < hi.toNat) :
    execBuild lo hi s = .next (s.raiseError (encode (.build lo hi)) .invalidDivisor (firstBadDivisor lo)) := by
  rw [execBuild, if_neg h, if_pos hout]

theorem execBuild_partial (h : ¬hi.toNat < lo.toNat) (hin : ¬(lo.toNat = 0 ∨ 255 < hi.toNat))
    (hpart : ¬(lo.toNat = 1 ∧ hi.toNat = 255)) :
    execBuild lo hi s = .next (s.raiseError (encode (.build lo hi)) .illegalCommand 0) := by
  rw [execBuild, if_neg h, if_neg hin, if_pos hpart]

theorem execBuild_full (hlo : lo.toNat = 1) (hhi : hi.toNat = 255) :
    execBuild lo hi s = .next s.build.complete := by
  rw [execBuild, if_neg (by omega), if_neg (by omega), if_neg (by omega)]

end

/-- The smallest requested divisor outside [1,255] (R118). -/
theorem toNat_firstBadDivisor (lo : BitVec 9) :
    (firstBadDivisor lo).toNat = if lo.toNat = 0 then 0 else max lo.toNat 256 := by
  have hlo := lo.isLt
  unfold firstBadDivisor
  split
  · rfl
  · rw [BitVec.toNat_ofNat]
    omega

/-! ### The published table -/

theorem length_magicSlot (f : Byte → Byte) : (magicSlot f).length = 256 := by
  simp [magicSlot]

theorem magicSlot_zero (f : Byte → Byte) : (magicSlot f).getD 0 0 = 0 := by
  rw [getD_magicSlot f (by decide), if_pos rfl]

theorem magicSlot_toNat (f : Byte → Byte) {d : Byte} (hd : d ≠ 0) : (magicSlot f).getD d.toNat 0 = f d := by
  rw [getD_magicSlot f d.isLt, if_neg (BitVec.toNat_pos_of_ne_zero hd).ne', BitVec.ofNat_toNat, BitVec.setWidth_eq]

/-- The entries that a WTL of slots 0 to 2 reads from the published table (R116, R117). -/
theorem tableEntry_of_published {s : State} (h : MagicPublished s) {d : Byte} (hd : d ≠ 0) :
    s.tableEntry .m d.toNat = magicM d ∧ s.tableEntry .sh1 d.toNat = magicSh1 d ∧
      s.tableEntry .sh2 d.toNat = magicSh2 d := by
  obtain ⟨hm, h1, h2⟩ := h
  simp only [State.tableEntry, hm, h1, h2, magicSlot_toNat _ hd, and_self]

/-- Entry 0 of each slot (R116). -/
theorem tableEntry_zero_of_published {s : State} (h : MagicPublished s) :
    s.tableEntry .m 0 = 0 ∧ s.tableEntry .sh1 0 = 0 ∧ s.tableEntry .sh2 0 = 0 := by
  obtain ⟨hm, h1, h2⟩ := h
  simp only [State.tableEntry, hm, h1, h2, magicSlot_zero, and_self]

/-- Settles O7: each branch of R118 is one lemma above, and a BUILD that is accepted leaves the published table. -/
theorem buildChecksThenPublishes : Obligations.BuildChecksThenPublishes := by
  refine ⟨fun lo hi => decodeOfEncodeIsTheCommand (.build lo hi), reservedBitsRaise_build, fun lo hi s => ?_⟩
  split
  next hrev => exact ⟨_, execBuild_reversed s hrev, s.raiseError_entered _ _ _⟩
  next hrev =>
  split
  next hout => exact ⟨_, execBuild_outside s hrev hout, _, s.raiseError_entered _ _ _, toNat_firstBadDivisor lo⟩
  next hin =>
  split
  next hfull =>
    obtain ⟨hlo, hhi⟩ := hfull
    have hpub : MagicPublished s.build.complete := ⟨rfl, rfl, rfl⟩
    exact ⟨_, execBuild_full s hlo hhi, s.complete_completed _ ⟨rfl, rfl, rfl⟩ rfl rfl rfl rfl rfl rfl, rfl,
      ⟨length_magicSlot _, length_magicSlot _, length_magicSlot _⟩, tableEntry_zero_of_published hpub,
      fun _ => tableEntry_of_published hpub, rfl, rfl, rfl, fun _ => rfl, rfl, rfl⟩
  next hpart => exact ⟨_, execBuild_partial s hrev hin hpart, s.raiseError_entered _ _ _⟩

/-- Publishing under the published table changes nothing (R120). -/
theorem State.build_of_published {s : State} (hv : s.mtValid = true) (h : MagicPublished s) : s.build = s := by
  obtain ⟨hm, h1, h2⟩ := h
  rw [State.build, ← hm, ← h1, ← h2, ← hv]

/-- Settles O41. -/
theorem rebuildChangesNoEntry : Obligations.RebuildChangesNoEntry := by
  intro s hv h
  refine (execBuild_full s rfl rfl).trans ?_
  rw [State.build_of_published hv h]
  rfl

end Sys2Proof.Machine

namespace Sys2Proof.Safety

open Sys2Proof Sys2Proof.Machine

/-! ### The lazy build (R119) -/

/-- A write of V[rd] after the lazy build leaves the table as that left it. -/
theorem lazilyBuilt_writeV (s : State) (rd : VReg) (f : Nat → Byte) :
    LazilyBuilt s (s.lazyBuild.writeV rd f).complete :=
  s.lazyBuild_built

section

variable {s t : State}

/-- A lookup of slot 0, 1 or 2 has built the table. -/
theorem lazilyBuilt_lookup {tsel : BitVec 3} {slot : Slot} (hs : slotOf tsel = some slot) (hm : tsel.toNat ≤ 2)
    (rd : VReg) (f : Nat → Byte) : LazilyBuilt s ((s.lazyBuildFor slot).writeV rd f).complete := by
  rcases s.lazyBuildFor_cases hs with ⟨-, e⟩ | ⟨h, -⟩
  · rw [e]
    exact lazilyBuilt_writeV s rd f
  · omega

/-- A command that needs the MagicTable enters an error or has built the table. -/
theorem halted_or_lazilyBuilt_of_exec {i : Instr} (hm : needsMagic i = true) (h : exec i s = .next t) :
    t.halted = true ∨ LazilyBuilt s t := by
  cases i with
  | lookup128 rd ra tsel half =>
    simp only [exec, execLookup128] at h
    split at h <;> cases h
    next => exact .inl rfl
    next slot hs => exact .inr (lazilyBuilt_lookup hs (by simpa [needsMagic] using hm) rd _)
  | wtl rd ra tsel =>
    simp only [exec, execWtl] at h
    split at h <;> cases h
    next => exact .inl rfl
    next slot hs => exact .inr (lazilyBuilt_lookup hs (by simpa [needsMagic] using hm) rd _)
  | quotient rd ra rb =>
    simp only [exec, execQuotient] at h
    split at h <;> cases h
    next => exact .inl rfl
    next => exact .inr s.lazyBuild_built
    next => exact .inr s.lazyBuild_built
  | _ => simp [needsMagic] at hm

/-- A command that halts a running block has entered an error, which keeps the MagicTable (R119, R217). -/
theorem magicKept_of_effect_halted {i : Instr} (he : Effect i s t) (hs : s.halted = false) (ht : t.halted = true) :
    MagicKept s t := by
  rcases completed_or_error_of_effect he with h | ⟨_, _, _, h⟩
  · have := h.halted
    simp [hs, ht] at this
  · exact h.magic

end

/-- Settles O39. -/
theorem lazyBuildRunsExactlyWhenNeeded : Obligations.LazyBuildRunsExactlyWhenNeeded := by
  intro i s
  obtain ⟨t, ht, he⟩ := exec_effect i s
  refine ⟨t, ht, cmdcnt_of_effect he, fun hm _ hrun => ?_, magicKept_of_effect he, magicKept_of_effect_halted he⟩
  exact (halted_or_lazilyBuilt_of_exec hm ht).resolve_left (by simp [hrun])

/-- Settles O58: a transaction but Reset keeps the table or publishes it whole, and Reset clears MT_VALID (R121). -/
theorem magicTablePublicationIsAtomic : Obligations.MagicTablePublicationIsAtomic := by
  intro s t hstep
  rcases step_cases hstep with ⟨-, rfl⟩ | ⟨x, rest, hp, he⟩
  · exact .inl (magicKept_refl t)
  · by_cases hx : x = .reset
    · subst hx
      rw [step_of_pending hp] at hstep
      cases hstep
      exact .inr (.inr ⟨⟨rest, hp⟩, rfl⟩)
    · rcases magicKept_or_published_of_hostEffect he hx with hk | hpub
      · exact .inl hk
      · exact .inr (.inl hpub)

end Sys2Proof.Safety
end

section
/-! The table lookups (O8 to O11, O23, O30): what a lookup reads of its slot's table, after the lazy build that the slot
needs, and what it leaves unchanged; HIGHBITMASK and BLEND beside it. -/

namespace Sys2Proof.Machine

open Sys2Proof Sys2Proof.Safety Laws

/-! ### The lane functions (R130, R132, R136) -/

theorem highBitMask_eq (x : Byte) : highBitMask x = decide (128 ≤ x.toNat) :=
  x.msb_eq_getLsbD_last.symm.trans x.msb_eq_decide

/-- A lookup of a table half ignores bit 7 of its index (R130, R131). -/
theorem lookup128_tableHalf (table : Nat → Byte) (half : Half) (x : Byte) :
    lookup128 (tableHalf table half) x = table (halfBase half + x.toNat % 128) := by
  simp [lookup128, tableHalf, BitVec.extractLsb'_toNat]

/-- Settles O23: the two cases of bit 7 are `wideLookup_eq`. -/
theorem wideLookupReadsTheIndexedEntry : Obligations.WideLookupReadsTheIndexedEntry :=
  fun table x => ⟨rfl, wideLookup_eq table x⟩

/-! ### The bits that the formats mark zero (R84 to R86, R95) -/

theorem reservedBitsRaise_lookup128 : ReservedBitsRaise 0x02 0x0000FFFF := by
  refine reservedBitsRaise_of_encode fun i hop => ?_
  cases i with
  | lookup128 rd ra tsel half => exact and_zeros_of_and_mask (formatRT_and_mask 0x02 rd ra tsel (halfBit half)) rfl rfl
  | _ => simp [opcodeOf] at hop

theorem reservedBitsRaise_highbitmask : ReservedBitsRaise 0x03 0x020FFFFF := by
  refine reservedBitsRaise_of_encode fun i hop => ?_
  cases i with
  | highbitmask kd ra => exact and_zeros_of_and_mask (formatRK_and_mask 0x03 kd ra) rfl rfl
  | _ => simp [opcodeOf] at hop

theorem reservedBitsRaise_blend : ReservedBitsRaise 0x04 0x00007FFF := by
  refine reservedBitsRaise_of_encode fun i hop => ?_
  cases i with
  | blend rd ra rb kc => exact and_zeros_of_and_mask (formatRB_and_mask 0x04 rd ra rb kc) rfl rfl
  | _ => simp [opcodeOf] at hop

/-- The half bit is one of WTL's reserved bits (R137). -/
theorem reservedBitsRaise_wtl : ReservedBitsRaise 0x05 0x0001FFFF := by
  refine reservedBitsRaise_of_encode fun i hop => ?_
  cases i with
  | wtl rd ra tsel => exact and_zeros_of_and_mask (formatRT_zero_and_mask 0x05 rd ra tsel) rfl rfl
  | _ => simp [opcodeOf] at hop

/-! ### What every lookup leaves, whatever it reads (R119, R131, R137) -/

/-- The slots that do not exist are 5, 6 and 7 (R91, R96). -/
theorem slotOf_eq_none_iff (tsel : BitVec 3) : slotOf tsel = none ↔ 4 < tsel.toNat := by
  simp [slotOf_eq_none, slotLegal]

/-- The state a lookup of `slot` leaves: the lazy build if the slot needs it, then the lanes of V[rd]. -/
def State.afterLookup (s : State) (slot : Slot) (rd : VReg) (f : Nat → Byte) : State :=
  ((s.lazyBuildFor slot).writeV rd f).complete

section

variable (s : State) (rd ra : VReg) {tsel : BitVec 3}

theorem exec_lookup128_of_slot (half : Half) {slot : Slot} (hs : slotOf tsel = some slot) :
    exec (.lookup128 rd ra tsel half) s = .next (s.afterLookup slot rd fun i =>
      builtEntry s slot (halfBase half + (s.lane ra i).toNat % 128)) := by
  simp only [exec, execLookup128, hs, lookup128_tableHalf]
  rfl

theorem exec_lookup128_of_no_slot (half : Half) (hs : slotOf tsel = none) :
    exec (.lookup128 rd ra tsel half) s =
      .next (s.raiseError (encode (.lookup128 rd ra tsel half)) .illegalCommand 0) := by
  simp only [exec, execLookup128, hs]

theorem exec_wtl_of_slot {slot : Slot} (hs : slotOf tsel = some slot) :
    exec (.wtl rd ra tsel) s = .next (s.afterLookup slot rd fun i => builtEntry s slot (s.lane ra i).toNat) := by
  simp only [exec, execWtl, hs, wideLookup_eq]
  rfl

theorem exec_wtl_of_no_slot (hs : slotOf tsel = none) :
    exec (.wtl rd ra tsel) s = .next (s.raiseError (encode (.wtl rd ra tsel)) .illegalCommand 0) := by
  simp only [exec, execWtl, hs]

end

section

variable (s : State) (slot : Slot) (rd : VReg) (f : Nat → Byte)

theorem State.afterLookup_wroteV : WroteV rd s (s.afterLookup slot rd f) := by
  have h := (s.lazyBuildFor slot).writeV_complete_only rd f
  exact
    { toCompleted := State.complete_completed s _ ⟨by simp, by simp, by simp⟩ (by simp) (by simp) (by simp) (by simp)
        (by simp) (by simp)
      vs := fun r hr => (h.vs r hr).trans (by simp)
      ks := by simp [State.afterLookup]
      user := by simp [State.afterLookup]
      buf := fun a => (h.buf a).trans (by simp) }

@[simp] theorem State.afterLookup_dz : (s.afterLookup slot rd f).dz = s.dz := by
  simp [State.afterLookup]

@[simp] theorem State.afterLookup_draws : (s.afterLookup slot rd f).draws = s.draws := by
  simp [State.afterLookup]

/-- The table as a lookup leaves it is the table it read. -/
@[simp] theorem State.afterLookup_tableEntry : (s.afterLookup slot rd f).tableEntry slot = builtEntry s slot := by
  cases slot <;> rfl

theorem State.afterLookup_lane {i : Nat} (hi : i < s.params.w) : (s.afterLookup slot rd f).lane rd i = f i :=
  State.lane_writeV_same _ rd f (by simpa using hi)

theorem State.afterLookup_lanes : LanesAre (s.afterLookup slot rd f) rd s.params.w fun i => (f i).toNat := by
  have h := (s.lazyBuildFor slot).writeV_complete_lanes rd f (fun i => (f i).toNat) fun _ _ => rfl
  rwa [State.lazyBuildFor_params] at h

/-- Slots 0, 1 and 2 are built first, and slots 3 and 4 build nothing (R119). -/
theorem State.afterLookup_magic {tsel : BitVec 3} (hs : slotOf tsel = some slot) :
    if tsel.toNat ≤ 2 then LazilyBuilt s (s.afterLookup slot rd f) else MagicKept s (s.afterLookup slot rd f) := by
  split
  next hm => exact lazilyBuilt_lookup hs hm rd f
  next hm =>
    rcases s.lazyBuildFor_cases hs with ⟨h, -⟩ | ⟨-, e⟩
    · exact absurd h hm
    · rw [State.afterLookup, e]
      exact ⟨rfl, rfl, rfl, rfl⟩

end

/-- Settles O8. -/
theorem lookup128ReadsTheTableHalf : Obligations.Lookup128ReadsTheTableHalf := by
  refine ⟨fun rd ra tsel half => decodeOfEncodeIsTheCommand (.lookup128 rd ra tsel half),
    reservedBitsRaise_lookup128, fun rd ra tsel half s => ?_⟩
  cases hs : slotOf tsel with
  | none => exact ⟨_, exec_lookup128_of_no_slot s rd ra half hs, fun _ => s.raiseError_entered _ _ _, by simp⟩
  | some slot =>
    refine ⟨_, exec_lookup128_of_slot s rd ra half hs, fun h => ?_, ?_⟩
    · simp [(slotOf_eq_none_iff tsel).2 h] at hs
    · rintro _ ⟨⟩
      refine ⟨s.afterLookup_wroteV slot rd _, by simp, by simp, s.afterLookup_magic slot rd _ hs, ?_⟩
      rw [State.afterLookup_tableEntry]
      exact s.afterLookup_lanes slot rd _

/-- A WTL whose index lanes and selected USER entries are written depends on no unwritten cell (R137). -/
theorem readsUnwritten_wtl_of_guard {s : State} {rd ra : VReg} {tsel : BitVec 3} {slot : Slot}
    (hs : slotOf tsel = some slot) (hg : LookupGuard s ra slot fun x => x.toNat) :
    readsUnwritten (.wtl rd ra tsel) s = false := by
  have huser : slot = .user → userWritten s ra (fun x => x.toNat) = true := fun e => by
    simpa [userWritten] using hg.user e
  simp only [readsUnwritten, hs]
  cases slot with
  | user => simp [hg.lanes, huser rfl]
  | m | sh1 | sh2 | bitWidth => simp [hg.lanes]

/-- Settles O11. -/
theorem wtlReadsTheWholeTable : Obligations.WtlReadsTheWholeTable := by
  refine ⟨fun rd ra tsel => decodeOfEncodeIsTheCommand (.wtl rd ra tsel), reservedBitsRaise_wtl,
    fun rd ra tsel s => ?_⟩
  cases hs : slotOf tsel with
  | none => exact ⟨_, exec_wtl_of_no_slot s rd ra hs, fun _ => s.raiseError_entered _ _ _, by simp⟩
  | some slot =>
    refine ⟨_, exec_wtl_of_slot s rd ra hs, fun h => ?_, ?_⟩
    · simp [(slotOf_eq_none_iff tsel).2 h] at hs
    · rintro _ ⟨⟩
      refine ⟨s.afterLookup_wroteV slot rd _, by simp, by simp, s.afterLookup_magic slot rd _ hs, ?_, fun hw => ?_⟩
      · rw [State.afterLookup_tableEntry]
        exact s.afterLookup_lanes slot rd _
      · exact readsUnwritten_wtl_of_guard hs ⟨(vWritten_iff s ra).2 fun i hi => (hw i hi).1,
          fun e i hi => (hw i hi).2 e⟩

/-! ### HIGHBITMASK and BLEND (R133, R135) -/

/-- Settles O9. -/
theorem highbitmaskTakesBitSeven : Obligations.HighbitmaskTakesBitSeven := by
  refine ⟨fun kd ra => decodeOfEncodeIsTheCommand (.highbitmask kd ra), reservedBitsRaise_highbitmask,
    fun kd ra s => ⟨_, rfl, s.writeK_complete_only kd _, ?_⟩⟩
  simp only [← highBitMask_eq]
  exact s.writeK_complete_bits kd _

/-- BLEND depends on no unwritten cell when every mask bit and every selected lane is written (R135). -/
theorem readsUnwritten_blend_of_written {s : State} {rd ra rb : VReg} {kc : KReg}
    (h : ∀ i, i < s.params.w → (s.maskCell kc i).written = true ∧
      (s.laneCell (if s.maskBit kc i = true then rb else ra) i).written = true) :
    readsUnwritten (.blend rd ra rb kc) s = false := by
  have hmask : kWritten s kc = true := (kWritten_iff s kc).2 fun i hi => (h i hi).1
  have hblend : blendWritten s ra rb kc = true := by
    simpa [blendWritten, hmask] using fun i hi => (h i hi).2
  simp [readsUnwritten, hblend]

/-- Settles O10. -/
theorem blendSelectsByMask : Obligations.BlendSelectsByMask := by
  refine ⟨fun rd ra rb kc => decodeOfEncodeIsTheCommand (.blend rd ra rb kc), reservedBitsRaise_blend,
    fun rd ra rb kc s => ⟨_, rfl, s.writeV_complete_only rd _, ?_, readsUnwritten_blend_of_written⟩⟩
  exact s.writeV_complete_lanes rd _ _ fun i _ => apply_ite BitVec.toNat ..

/-! ### WTL of the MagicTable (R138) -/

/-- A table that was published, or had to be built, is published after the lazy build. -/
theorem magicPublished_lazyBuild {s : State} (h : s.mtValid = true → MagicPublished s) :
    MagicPublished s.lazyBuild := by
  rcases s.lazyBuild_cases with ⟨hv, e⟩ | ⟨-, e⟩ <;> rw [e]
  · exact h hv
  · exact ⟨rfl, rfl, rfl⟩

/-- The triple a lane gathers from slots 0, 1 and 2 (R116, R138). -/
theorem builtEntry_of_published {s : State} (h : s.mtValid = true → MagicPublished s) (d : Byte) :
    builtEntry s .m d.toNat = (if d = 0 then 0 else magicM d) ∧
      builtEntry s .sh1 d.toNat = (if d = 0 then 0 else magicSh1 d) ∧
      builtEntry s .sh2 d.toNat = (if d = 0 then 0 else magicSh2 d) := by
  have hpub := magicPublished_lazyBuild h
  by_cases hd : d = 0
  · subst hd
    exact tableEntry_zero_of_published hpub
  · simp only [if_neg hd]
    exact tableEntry_of_published hpub hd

/-- Settles O30. -/
theorem wtlGathersTheMagicTriple : Obligations.WtlGathersTheMagicTriple := by
  intro rd ra s h
  refine ⟨_, _, _, exec_wtl_of_slot s rd ra (slot := .m) rfl, exec_wtl_of_slot s rd ra (slot := .sh1) rfl,
    exec_wtl_of_slot s rd ra (slot := .sh2) rfl, fun i hi => ?_⟩
  simp only [State.afterLookup_lane s _ rd _ hi]
  exact builtEntry_of_published h (s.lane ra i)

end Sys2Proof.Machine
end

section
/-! Lanes are independent (O40): a command reads, for lane `j` of its destination, lane `j` of its sources, the tables, BUF
and the draws, so two blocks that agree there agree on lane `j` of every register afterwards. -/

namespace Sys2Proof.Machine

open Sys2Proof Sys2Proof.Safety

/-! ### What the two blocks have in common -/

/-- The two blocks agree on all that lane `j` of a result may depend on (R139, R174). -/
structure AgreeOnLane (j : Nat) (s t : State) : Prop where
  params  : s.params = t.params
  inRange : j < s.params.w
  mtValid : s.mtValid = t.mtValid
  tblM    : s.tblM = t.tblM
  tblSh1  : s.tblSh1 = t.tblSh1
  tblSh2  : s.tblSh2 = t.tblSh2
  user    : s.user = t.user
  buf     : s.buf = t.buf
  draws   : s.draws = t.draws
  vs      : ∀ r : VReg, s.laneCell r j = t.laneCell r j
  ks      : ∀ c : KReg, s.maskCell c j = t.maskCell c j

section

variable {j : Nat} {s t : State} (h : AgreeOnLane j s t)
include h

theorem AgreeOnLane.lane_eq (r : VReg) : s.lane r j = t.lane r j := congrArg Stored.val (h.vs r)

theorem AgreeOnLane.maskBit_eq (c : KReg) : s.maskBit c j = t.maskBit c j := congrArg Stored.val (h.ks c)

theorem AgreeOnLane.tableEntry_eq (slot : Slot) : s.tableEntry slot = t.tableEntry slot := by
  funext i
  cases slot with
  | m => simp only [State.tableEntry, h.tblM]
  | sh1 => simp only [State.tableEntry, h.tblSh1]
  | sh2 => simp only [State.tableEntry, h.tblSh2]
  | bitWidth => rfl
  | user => simp only [State.tableEntry, State.userCell, h.user]

theorem AgreeOnLane.loadCell_eq (x n : Nat) : s.loadCell x n = t.loadCell x n := by
  rw [State.loadCell, State.loadCell, h.buf]

theorem AgreeOnLane.fits_eq (addr : BitVec 16) (n : Nat) : s.fits addr n = t.fits addr n := by
  rw [State.fits, State.fits, h.params]

theorem AgreeOnLane.build : AgreeOnLane j s.build t.build :=
  { h with mtValid := rfl, tblM := rfl, tblSh1 := rfl, tblSh2 := rfl }

/-- The lazy build is due in both blocks or in neither. -/
theorem AgreeOnLane.lazyBuild : AgreeOnLane j s.lazyBuild t.lazyBuild := by
  rw [State.lazyBuild, State.lazyBuild, ← h.mtValid]
  split
  · exact h
  · exact h.build

theorem AgreeOnLane.lazyBuildFor (slot : Slot) : AgreeOnLane j (s.lazyBuildFor slot) (t.lazyBuildFor slot) := by
  rw [State.lazyBuildFor, State.lazyBuildFor]
  split
  · exact h.lazyBuild
  · exact h

theorem AgreeOnLane.builtEntry_eq (slot : Slot) : builtEntry s slot = builtEntry t slot :=
  (h.lazyBuildFor slot).tableEntry_eq slot

theorem AgreeOnLane.quotientLane_eq : s.quotientLane = t.quotientLane := by
  funext n d
  simp only [State.quotientLane, h.tableEntry_eq]

/-! ### Writes of the destination -/

/-- The two blocks write the same cell to lane `j`. -/
theorem AgreeOnLane.writeCells {f g : Nat → Stored Byte} (rd : VReg) (hfg : f j = g j) :
    (s.writeCells rd f).laneCell rd j = (t.writeCells rd g).laneCell rd j := by
  rw [State.laneCell_writeCells_same, State.laneCell_writeCells_same, h.params, hfg]

theorem AgreeOnLane.writeV {f g : Nat → Byte} (rd : VReg) (hfg : f j = g j) :
    (s.writeV rd f).laneCell rd j = (t.writeV rd g).laneCell rd j :=
  h.writeCells rd (by rw [hfg])

theorem AgreeOnLane.writeK {f g : Nat → Bool} (kd : KReg) (hfg : f j = g j) :
    (s.writeK kd f).maskCell kd j = (t.writeK kd g).maskCell kd j := by
  rw [s.maskCell_writeK_same kd f h.inRange, t.maskCell_writeK_same kd g (h.params ▸ h.inRange), hfg]

theorem AgreeOnLane.mapLanes2 {f g : Byte → Byte → Byte} (hfg : f = g) (rd ra rb : VReg) :
    (s.mapLanes2 f rd ra rb).laneCell rd j = (t.mapLanes2 g rd ra rb).laneCell rd j :=
  h.writeV rd (by rw [hfg, h.lane_eq, h.lane_eq])

theorem AgreeOnLane.quotientLanes (rd ra rb : VReg) :
    (s.quotientLanes rd ra rb).laneCell rd j = (t.quotientLanes rd ra rb).laneCell rd j :=
  h.lazyBuild.mapLanes2 h.lazyBuild.quotientLane_eq rd ra rb

theorem AgreeOnLane.afterLookup {f g : Nat → Byte} (slot : Slot) (rd : VReg) (hfg : f j = g j) :
    (s.afterLookup slot rd f).laneCell rd j = (t.afterLookup slot rd g).laneCell rd j :=
  (h.lazyBuildFor slot).writeV rd hfg

end

/-! ### Commands -/

theorem not_completed_raiseError {s : State} (hh : s.halted = false) (c : Word) (e : ErrCode) (x : Word) :
    ¬Completed s (s.raiseError c e x) := by
  intro hc
  simpa [hh] using hc.halted

/-- A QUOTIENT that completes leaves the lanes of R169, whatever the policy. -/
theorem v_of_completed_quotient {rd ra rb : VReg} {s t : State} (hh : s.halted = false)
    (h : exec (.quotient rd ra rb) s = .next t) (hc : Completed s t) : t.v = (s.quotientLanes rd ra rb).v := by
  simp only [exec, execQuotient] at h
  split at h <;> cases h
  next => exact absurd hc (not_completed_raiseError hh _ _ _)
  next => rfl
  next => rfl

section

variable {j : Nat} {s t s' t' : State} (h : AgreeOnLane j s t)
include h

theorem AgreeOnLane.exec_lookup128 {rd ra : VReg} {tsel : BitVec 3} {half : Half}
    (hs : exec (.lookup128 rd ra tsel half) s = .next s') (ht : exec (.lookup128 rd ra tsel half) t = .next t') :
    s'.laneCell rd j = t'.laneCell rd j := by
  cases hslot : slotOf tsel with
  | none =>
    rw [exec_lookup128_of_no_slot _ rd ra half hslot] at hs ht
    cases hs; cases ht
    exact h.vs rd
  | some slot =>
    rw [exec_lookup128_of_slot _ rd ra half hslot] at hs ht
    cases hs; cases ht
    exact h.afterLookup slot rd (by rw [h.builtEntry_eq, h.lane_eq])

theorem AgreeOnLane.exec_wtl {rd ra : VReg} {tsel : BitVec 3}
    (hs : exec (.wtl rd ra tsel) s = .next s') (ht : exec (.wtl rd ra tsel) t = .next t') :
    s'.laneCell rd j = t'.laneCell rd j := by
  cases hslot : slotOf tsel with
  | none =>
    rw [exec_wtl_of_no_slot _ rd ra hslot] at hs ht
    cases hs; cases ht
    exact h.vs rd
  | some slot =>
    rw [exec_wtl_of_slot _ rd ra hslot] at hs ht
    cases hs; cases ht
    exact h.afterLookup slot rd (by rw [h.builtEntry_eq, h.lane_eq])

theorem AgreeOnLane.exec_vld {rd : VReg} {addr : BitVec 16}
    (hs : exec (.vld rd addr) s = .next s') (ht : exec (.vld rd addr) t = .next t') :
    s'.laneCell rd j = t'.laneCell rd j := by
  simp only [exec, execVld, h.fits_eq, h.params] at hs ht
  split_ifs at hs ht <;> cases hs <;> cases ht
  · exact h.writeCells rd (by rw [h.loadCell_eq, h.draws])
  · exact h.vs rd

/-- Lane `j` of the destination depends on what the two blocks have in common (R139, R174). A QUOTIENT has to complete
in both: under STRICT a zero in another lane rejects it. -/
theorem AgreeOnLane.exec_destination {i : Instr} {rd : VReg} (hrd : writesV i = some rd) (hsh : s.halted = false)
    (hth : t.halted = false) (hs : exec i s = .next s') (ht : exec i t = .next t') (hsc : Completed s s')
    (htc : Completed t t') : s'.laneCell rd j = t'.laneCell rd j := by
  cases i with
  | nop | build | highbitmask | vst | tld => cases hrd
  | lookup128 => cases hrd; exact h.exec_lookup128 hs ht
  | wtl => cases hrd; exact h.exec_wtl hs ht
  | vld => cases hrd; exact h.exec_vld hs ht
  | blend _ ra rb kc =>
    cases hrd; cases hs; cases ht
    exact h.writeV rd (by rw [h.maskBit_eq, h.lane_eq, h.lane_eq])
  | bitwidth _ ra =>
    cases hrd; cases hs; cases ht
    exact h.writeV rd (by rw [h.tableEntry_eq, h.lane_eq])
  | vsplat => cases hrd; cases hs; cases ht; exact h.writeV rd rfl
  | mulhi | vadd | vsub | vsrlv => cases hrd; cases hs; cases ht; exact h.mapLanes2 rfl rd _ _
  | quotient _ ra rb =>
    cases hrd
    rw [State.laneCell, State.laneCell, v_of_completed_quotient hsh hs hsc, v_of_completed_quotient hth ht htc]
    exact h.quotientLanes rd ra rb

/-- Bit `j` of a mask register that a command writes is bit 7 of lane `j` of its source (R133). -/
theorem AgreeOnLane.exec_mask {i : Instr} {kd : KReg} (hkd : writesK i = some kd) (hs : exec i s = .next s')
    (ht : exec i t = .next t') : s'.maskCell kd j = t'.maskCell kd j := by
  cases i with
  | highbitmask _ ra =>
    cases hkd; cases hs; cases ht
    exact h.writeK kd (by rw [h.lane_eq])
  | _ => cases hkd

end

/-- Settles O40: `exec_destination` and `exec_mask` give the register the command writes, and every other register is
as before (R43). -/
theorem lanesAreIndependent : Obligations.LanesAreIndependent := by
  intro i s t s' t' j params inRange mtValid tblM tblSh1 tblSh2 user buf draws vs ks hsh hth hs ht hsc htc
  have h : AgreeOnLane j s t := { params, inRange, mtValid, tblM, tblSh1, tblSh2, user, buf, draws, vs, ks }
  have hse := effect_of_exec hs
  have hte := effect_of_exec ht
  refine ⟨fun r => ?_, fun c => ?_⟩
  · by_cases hr : writesV i = some r
    · exact h.exec_destination hr hsh hth hs ht hsc htc
    · rw [State.laneCell, State.laneCell, v_of_effect hse hr, v_of_effect hte hr]
      exact vs r
  · by_cases hc : writesK i = some c
    · exact h.exec_mask hc hs ht
    · rw [State.maskCell, State.maskCell, k_of_effect hse hc, k_of_effect hte hc]
      exact ks c

end Sys2Proof.Machine
end

section
/-! The bit width (O12, O24 to O26): everything said of `bit_width` follows from `bitWidth_le_iff`; BITWIDTH reads it from
slot 3, and the fast path may put 8 for the high half, because every byte with bit 7 set has that width. -/

namespace Sys2Proof.Machine

open Sys2Proof Sys2Proof.Safety Laws

/-! ### The function (R150) -/

theorem bitWidth_le_eight (x : Byte) : bitWidth x ≤ 8 := (bitWidth_le_iff x 8).2 x.isLt

theorem lt_two_pow_bitWidth (x : Byte) : x.toNat < 2 ^ bitWidth x := (bitWidth_le_iff x _).1 le_rfl

theorem bitWidth_mono {x y : Byte} (h : x ≤ y) : bitWidth x ≤ bitWidth y :=
  (bitWidth_le_iff x _).2 ((BitVec.le_def.1 h).trans_lt (lt_two_pow_bitWidth y))

theorem getLsbD_of_bitWidth_le {x : Byte} {j : Nat} (h : bitWidth x ≤ j) : x.getLsbD j = false :=
  Nat.testBit_eq_false_of_lt ((bitWidth_le_iff x j).1 h)

/-- The highest set bit of a byte other than 0 lies just below its bit width (R150). -/
theorem getLsbD_bitWidth_sub_one {x : Byte} (hx : x ≠ 0) : x.getLsbD (bitWidth x - 1) = true := by
  have hpos := BitVec.toNat_pos_of_ne_zero hx
  have hlt := lt_two_pow_bitWidth x
  cases hk : bitWidth x with
  | zero => rw [hk] at hlt; omega
  | succ k =>
    rw [hk] at hlt
    have hge : 2 ^ k ≤ x.toNat := not_lt.1 ((bitWidth_le_iff x k).not.1 (by omega))
    exact Nat.testBit_of_two_pow_le_and_two_pow_add_one_gt hge hlt

/-- Settles O24. -/
theorem bitWidthIsTheLeastPowerExponent : Obligations.BitWidthIsTheLeastPowerExponent :=
  ⟨rfl, fun x => ⟨fun hx => ⟨getLsbD_bitWidth_sub_one hx, fun _ => getLsbD_of_bitWidth_le⟩,
    bitWidth_le_eight x, lt_two_pow_bitWidth x, fun k => (bitWidth_le_iff x k).2⟩⟩

/-- Settles O25: the order of the entries is that of the bit widths. -/
theorem bitWidthTableIsMonotoneRom : Obligations.BitWidthTableIsMonotoneRom := by
  intro s
  simp only [State.tableEntry_bitWidth]
  refine ⟨toNat_bitWidthRom, rfl, rfl, fun x y hxy => BitVec.le_def.2 ?_⟩
  rw [toNat_bitWidthRom, toNat_bitWidthRom]
  exact bitWidth_mono hxy

/-! ### BITWIDTH (R153) -/

theorem reservedBitsRaise_bitwidth : ReservedBitsRaise 0x06 0x000FFFFF := by
  refine reservedBitsRaise_of_encode fun i hop => ?_
  cases i with
  | bitwidth rd ra => exact and_zeros_of_and_mask (formatR2_and_mask 0x06 rd ra) rfl rfl
  | _ => simp [opcodeOf] at hop

/-- The generic path reads a lane's entry of the ROM (R136, R153). -/
theorem wideLookup_bitWidth (s : State) (x : Byte) : wideLookup (s.tableEntry .bitWidth) x = bitWidthRom x := by
  rw [wideLookup_eq, State.tableEntry_bitWidth]

theorem exec_bitwidth (rd ra : VReg) (s : State) :
    exec (.bitwidth rd ra) s = .next (s.writeV rd fun i => bitWidthRom (s.lane ra i)).complete := by
  simp only [exec, execBitwidth, wideLookup_bitWidth]

/-- Slot 3 needs no lazy build, so WTL of it is BITWIDTH (R119, R153). -/
theorem exec_wtl_bitWidth (rd ra : VReg) (s : State) : exec (.wtl rd ra 3) s = exec (.bitwidth rd ra) s := rfl

/-- Settles O12. -/
theorem bitwidthGivesTheBitWidth : Obligations.BitwidthGivesTheBitWidth := by
  refine ⟨fun rd ra => decodeOfEncodeIsTheCommand (.bitwidth rd ra), reservedBitsRaise_bitwidth,
    fun rd ra s => ?_, exec_wtl_bitWidth⟩
  have hlanes := s.writeV_complete_lanes rd (fun i => bitWidthRom (s.lane ra i)) (fun i => bitWidth (s.lane ra i))
    fun i _ => toNat_bitWidthRom (s.lane ra i)
  refine ⟨_, exec_bitwidth rd ra s, s.writeV_complete_only rd _, hlanes, fun i hi => ?_⟩
  rw [(hlanes.2 i hi).1]
  exact ⟨lt_two_pow_bitWidth _, fun k => (bitWidth_le_iff _ k).2, bitWidth_le_eight _⟩

/-! ### The fast path (R154) -/

theorem builtEntry_bitWidth (s : State) : builtEntry s .bitWidth = s.tableEntry .bitWidth := rfl

/-- Every byte with bit 7 set is 8 bits wide, so the fast path needs no high half of the table (R154). -/
theorem bitWidthRom_of_highBitMask {x : Byte} (h : highBitMask x = true) : bitWidthRom x = 8 := by
  have hge : 2 ^ 7 ≤ x.toNat := by simpa [highBitMask_eq] using h
  have hgt : ¬bitWidth x ≤ 7 := (bitWidth_le_iff x 7).not.2 hge.not_gt
  have hle := bitWidth_le_eight x
  rw [bitWidthRom, show bitWidth x = 8 by omega]
  rfl

theorem blendLane_lookup128_bitWidth (s : State) (x : Byte) :
    blendLane (highBitMask x) (lookup128 (tableHalf (s.tableEntry .bitWidth) .lo) x) 8 =
      wideLookup (s.tableEntry .bitWidth) x := by
  cases h : highBitMask x with
  | false => rw [wideLookup, h]; rfl
  | true => rw [wideLookup_bitWidth, bitWidthRom_of_highBitMask h]; rfl

theorem exec_vsplat (rd : VReg) (imm8 : BitVec 8) (s : State) :
    ∃ t, exec (.vsplat rd imm8) s = .next t ∧ ∀ i, i < s.params.w → t.lane rd i = imm8 :=
  ⟨_, rfl, fun _ hi => s.lane_writeV_same rd _ hi⟩

/-- Settles O26: BLEND finds the low lookup, the 8 and the mask that `blendLane_lookup128_bitWidth` speaks of, because
the commands between leave them. -/
theorem bitWidthFastPathAgrees : Obligations.BitWidthFastPathAgrees := by
  refine ⟨blendLane_lookup128_bitWidth, fun vd va vt kt s hvdva hvdvt _ => ?_⟩
  obtain ⟨a, ha, -, halo⟩ := exec_lookup128 s vd va .lo (slot := .bitWidth) (tsel := 3) rfl
  obtain ⟨b, hb, hbmask⟩ := exec_highbitmask a kt va
  obtain ⟨c, hc, hceight⟩ := exec_vsplat vt 8 b
  obtain ⟨d, hd, hdv⟩ := exec_blend c vd vd vt kt
  obtain ⟨u, hu, huv⟩ := exec_wtl s vd va (slot := .bitWidth) (tsel := 3) rfl
  have ea := effect_of_exec ha
  have eb := effect_of_exec hb
  have ec := effect_of_exec hc
  have pa : a.params = s.params := (hostKept_of_effect ea).params
  have pb : b.params = s.params := (hostKept_of_effect eb).params.trans pa
  have pc : c.params = s.params := (hostKept_of_effect ec).params.trans pb
  refine ⟨d, u, ?_, (exec_wtl_bitWidth vd va s).symm.trans hu, ?_⟩
  · rw [execAll_cons ha, execAll_cons hb, execAll_cons hc, execAll_cons hd, execAll]
  · rw [hdv, huv, pc, builtEntry_bitWidth]
    refine List.map_congr_left fun i hi => ?_
    have hi : i < s.params.w := List.mem_range.1 hi
    have hlo : c.lane vd i = lookup128 (tableHalf (s.tableEntry .bitWidth) .lo) (s.lane va i) := by
      rw [lane_of_effect ec (by simpa [writesV] using hvdvt.symm), lane_of_effect eb (by simp [writesV]), halo i hi,
        builtEntry_bitWidth]
    have hmask : c.maskBit kt i = highBitMask (s.lane va i) := by
      have hkeep : c.maskBit kt i = b.maskBit kt i := by
        rw [State.maskBit, State.maskCell, k_of_effect ec (by simp [writesK])]
        rfl
      rw [hkeep, hbmask i (pa ▸ hi), lane_of_effect ea (by simpa [writesV] using hvdva)]
    rw [hmask, hlo, hceight i (pb ▸ hi), blendLane_lookup128_bitWidth]

end Sys2Proof.Machine
end

section
/-! The quotient engine (O13, O17, O31, O32, O35): the lane formula wraps nowhere and, on a published table, divides;
QUOTIENT is that formula in every lane, or a rejection that writes none. -/

namespace Sys2Proof.Machine

open Sys2Proof Sys2Proof.Safety Laws

/-! ### The quotient of one lane (R167, R168) -/

/-- The wide lookups of R167 gather the entries that the divisor names. -/
theorem State.quotientLane_eq (s : State) (n d : Byte) :
    s.quotientLane n d =
      quotientFinish n (s.tableEntry .m d.toNat) (s.tableEntry .sh1 d.toNat) (s.tableEntry .sh2 d.toNat) := by
  simp only [State.quotientLane, wideLookup_eq]

/-- The sum of the finish does not exceed the numerator, whatever the multiplier and the shift (R173). -/
theorem mulhi8_add_shift_le (n m : Byte) (k : Nat) :
    (mulhi8 m n).toNat + (n.toNat - (mulhi8 m n).toNat) / 2 ^ k ≤ n.toNat := by
  have ht := toNat_mulhi8_le m n
  have hshift := Nat.div_le_self (n.toNat - (mulhi8 m n).toNat) (2 ^ k)
  omega

/-- R168 with its two steps modulo 256 written out. -/
theorem toNat_quotientFinish_mod (n m sh1 sh2 : Byte) :
    (quotientFinish n m sh1 sh2).toNat =
      (m.toNat * n.toNat / 256 + (n.toNat + 256 - m.toNat * n.toNat / 256) % 256 / 2 ^ sh1.toNat) % 256 /
        2 ^ sh2.toNat := by
  have ht := toNat_mulhi8_le m n
  have hsum := mulhi8_add_shift_le n m sh1.toNat
  have hn := n.isLt
  rw [toNat_quotientFinish, ← toNat_mulhi8]
  have hdiff : (n.toNat + 256 - (mulhi8 m n).toNat) % 256 = n.toNat - (mulhi8 m n).toNat := by omega
  rw [hdiff, Nat.mod_eq_of_lt (hsum.trans_lt hn)]

/-- The bounds of R173 on a gathered triple, entry 0 too. -/
theorem tableEntry_bounds_of_published {s : State} (h : MagicPublished s) (d : Byte) :
    (s.tableEntry .sh1 d.toNat).toNat ≤ 1 ∧ (s.tableEntry .sh2 d.toNat).toNat ≤ 7 ∧
      (s.tableEntry .m d.toNat).toNat ≤ 253 := by
  by_cases hd : d = 0
  · obtain ⟨hm, h1, h2⟩ := tableEntry_zero_of_published h
    subst hd
    simp [hm, h1, h2]
  · obtain ⟨hm, h1, h2⟩ := tableEntry_of_published h hd
    have h8 := magicL_le_eight d
    rw [hm, h1, h2, toNat_magicSh1, toNat_magicSh2]
    exact ⟨by omega, by omega, toNat_magicM_le hd⟩

/-- Settles O32. -/
theorem quotientStepsDoNotWrap : Obligations.QuotientStepsDoNotWrap := by
  intro s n d h
  simp only [wideLookup_eq, State.quotientLane_eq]
  obtain ⟨h1, h2, hm⟩ := tableEntry_bounds_of_published h d
  exact ⟨h1, h2, hm, toNat_mulhi8_le _ n, mulhi8_add_shift_le n _ _, toNat_quotientFinish n _ _ _⟩

/-- On the published table a lane is divided, and a zero divisor leaves the numerator (R170, R171). -/
theorem quotientLane_of_published {s : State} (h : MagicPublished s) (n d : Byte) :
    s.quotientLane n d = if d = 0 then n else n / d := by
  refine BitVec.eq_of_toNat_eq ?_
  rw [State.quotientLane_eq]
  split
  next hd =>
    obtain ⟨hm, h1, h2⟩ := tableEntry_zero_of_published h
    subst hd
    simp [hm, h1, h2, toNat_quotientFinish, toNat_mulhi8]
  next hd =>
    obtain ⟨hm, h1, h2⟩ := tableEntry_of_published h hd
    rw [hm, h1, h2, toNat_quotientFinish_magic n hd, BitVec.toNat_udiv]

/-! ### The bits that format R3 marks zero, and MULHI (R95, R166) -/

theorem reservedBitsRaise_mulhi : ReservedBitsRaise 0x07 0x0001FFFF := by
  refine reservedBitsRaise_of_encode fun i hop => ?_
  cases i with
  | mulhi rd ra rb => exact and_zeros_of_and_mask (formatR3_and_mask 0x07 rd ra rb) rfl rfl
  | _ => simp [opcodeOf] at hop

theorem reservedBitsRaise_quotient : ReservedBitsRaise 0x0B 0x0001FFFF := by
  refine reservedBitsRaise_of_encode fun i hop => ?_
  cases i with
  | quotient rd ra rb => exact and_zeros_of_and_mask (formatR3_and_mask 0x0B rd ra rb) rfl rfl
  | _ => simp [opcodeOf] at hop

/-- Settles O13. -/
theorem mulhiIsTheUpperByteOfTheProduct : Obligations.MulhiIsTheUpperByteOfTheProduct := by
  refine ⟨fun rd ra rb => decodeOfEncodeIsTheCommand (.mulhi rd ra rb), reservedBitsRaise_mulhi,
    fun rd ra rb s => ⟨_, rfl, s.writeV_complete_only rd _, ?_⟩⟩
  exact s.writeV_complete_lanes rd _ _ fun i _ => toNat_mulhi8 (s.lane ra i) (s.lane rb i)

/-! ### QUOTIENT completes or is rejected (R169, R172) -/

/-- The zero-divisor policy does not reject a QUOTIENT by V[rb]. -/
def QuotientAccepted (s : State) (rb : VReg) : Prop :=
  s.params.policy = .lenient ∨ ∀ i, i < s.params.w → s.lane rb i ≠ 0

/-- The state a completed QUOTIENT leaves. Under STRICT no lane is 0, so its DZ event sets nothing. -/
def State.afterQuotient (s : State) (rd ra rb : VReg) : State :=
  ((s.quotientLanes rd ra rb).noteDz (s.firstZeroLane rb).isSome).complete

theorem State.noteDz_false (s : State) : s.noteDz false = s := by
  rw [State.noteDz, Bool.or_false]

/-- A zero divisor lane is found exactly when there is one (R171). -/
theorem State.firstZeroLane_isSome_iff (s : State) (r : VReg) :
    (s.firstZeroLane r).isSome = true ↔ ∃ i, i < s.params.w ∧ s.lane r i = 0 := by
  rw [Option.isSome_iff_ne_none, ne_eq, s.firstZeroLane_none r]
  push Not
  rfl

/-- The lane found is the one R172 names. -/
theorem State.firstZeroLane_eq_some {s : State} {r : VReg} {i : Nat} (hi : i < s.params.w) (hz : s.lane r i = 0)
    (hlow : ∀ j, j < i → s.lane r j ≠ 0) : s.firstZeroLane r = some i := by
  rw [State.firstZeroLane, List.find?_range_eq_some]
  exact ⟨by simpa using hz, by simpa using hi, fun j hj => by simpa using hlow j hj⟩

section

variable {s t : State} {rd ra rb : VReg}

theorem exec_quotient_of_accepted (rd ra : VReg) (h : QuotientAccepted s rb) :
    exec (.quotient rd ra rb) s = .next (s.afterQuotient rd ra rb) := by
  simp only [exec, execQuotient, State.afterQuotient]
  cases hp : s.params.policy with
  | lenient => rfl
  | strict =>
    have hnone := (s.firstZeroLane_none rb).2 (h.resolve_left (by simp [hp]))
    simp only [hnone, Option.isSome_none, State.noteDz_false]

theorem exec_quotient_of_rejected (rd ra : VReg) (h : ¬QuotientAccepted s rb) :
    ∃ i, s.firstZeroLane rb = some i ∧ exec (.quotient rd ra rb) s =
      .next (s.raiseError (encode (.quotient rd ra rb)) .divisionByZero (BitVec.ofNat 32 i)) := by
  rw [QuotientAccepted, not_or, ← s.firstZeroLane_none rb] at h
  obtain ⟨hp, hzero⟩ := h
  obtain ⟨i, hi⟩ := Option.ne_none_iff_exists'.1 hzero
  have hstrict : s.params.policy = .strict := by
    cases hc : s.params.policy with
    | strict => rfl
    | lenient => exact absurd hc hp
  exact ⟨i, hi, by simp only [exec, execQuotient, hstrict, hi]⟩

/-- A rejected QUOTIENT leaves the block halted (R172, R217). -/
theorem accepted_of_exec_quotient (h : exec (.quotient rd ra rb) s = .next t) (ht : t.halted = false) :
    QuotientAccepted s rb := by
  by_contra hrej
  obtain ⟨i, -, hexec⟩ := exec_quotient_of_rejected rd ra hrej
  rw [h] at hexec
  cases hexec
  simp at ht

end

section

variable (s : State) (rd ra rb : VReg)

/-- The lazy build changes no lane. -/
theorem State.lazyBuild_lane (r : VReg) (i : Nat) : s.lazyBuild.lane r i = s.lane r i := by
  simp only [State.lane, State.laneCell, State.lazyBuild_v]

/-- QUOTIENT writes its lanes after the lazy build, as a lookup of slot m does (R119, R169). -/
theorem State.quotientLanes_eq : s.quotientLanes rd ra rb = (s.lazyBuildFor .m).writeV rd fun i =>
    s.lazyBuild.quotientLane (s.lane ra i) (s.lane rb i) := by
  rw [State.quotientLanes, State.mapLanes2]
  simp only [State.lazyBuild_lane]
  rfl

theorem State.quotientLanes_v_self : (s.quotientLanes rd ra rb).v[rd] = (List.range s.params.w).map fun i =>
    { val := s.lazyBuild.quotientLane (s.lane ra i) (s.lane rb i), written := true } := by
  simp [State.quotientLanes_eq]

theorem State.afterQuotient_wroteV : WroteV rd s (s.afterQuotient rd ra rb) := by
  rw [State.afterQuotient, State.quotientLanes_eq]
  exact { s.afterLookup_wroteV .m rd _ with }

theorem State.afterQuotient_lanes : LanesAre (s.afterQuotient rd ra rb) rd s.params.w fun i =>
    (s.lazyBuild.quotientLane (s.lane ra i) (s.lane rb i)).toNat := by
  rw [State.afterQuotient, State.quotientLanes_eq]
  exact s.afterLookup_lanes .m rd _

theorem State.afterQuotient_lane {i : Nat} (hi : i < s.params.w) :
    (s.afterQuotient rd ra rb).lane rd i = s.lazyBuild.quotientLane (s.lane ra i) (s.lane rb i) :=
  BitVec.eq_of_toNat_eq ((s.afterQuotient_lanes rd ra rb).2 i hi).1

theorem State.afterQuotient_lazilyBuilt : LazilyBuilt s (s.afterQuotient rd ra rb) :=
  s.lazyBuild_built

/-- The table as a QUOTIENT leaves it is the table it read. -/
@[simp] theorem State.afterQuotient_tableEntry (slot : Slot) :
    (s.afterQuotient rd ra rb).tableEntry slot = s.lazyBuild.tableEntry slot := by
  cases slot <;> rfl

@[simp] theorem State.afterQuotient_draws : (s.afterQuotient rd ra rb).draws = s.draws := s.lazyBuild_draws

theorem State.afterQuotient_dz_iff :
    (s.afterQuotient rd ra rb).dz = true ↔ s.dz = true ∨ ∃ i, i < s.params.w ∧ s.lane rb i = 0 := by
  have hdz : (s.afterQuotient rd ra rb).dz = (s.dz || (s.firstZeroLane rb).isSome) :=
    congrArg (· || (s.firstZeroLane rb).isSome) s.lazyBuild_dz
  rw [hdz, Bool.or_eq_true, s.firstZeroLane_isSome_iff]

end

/-- Settles O17. -/
theorem quotientComputesOrRejects : Obligations.QuotientComputesOrRejects := by
  refine ⟨fun rd ra rb => decodeOfEncodeIsTheCommand (.quotient rd ra rb), reservedBitsRaise_quotient,
    fun rd ra rb s => ?_⟩
  by_cases hacc : QuotientAccepted s rb
  · refine ⟨_, exec_quotient_of_accepted rd ra hacc, fun i hstrict hi hz _ => ?_, fun _ => ?_⟩
    · exact absurd hz (hacc.resolve_left (by simp [hstrict]) i hi)
    · refine ⟨s.afterQuotient_wroteV rd ra rb, s.afterQuotient_lazilyBuilt rd ra rb, by simp,
        s.afterQuotient_dz_iff rd ra rb, ?_⟩
      have hlanes := s.afterQuotient_lanes rd ra rb
      simp only [State.quotientLane_eq, toNat_quotientFinish_mod] at hlanes
      simpa only [State.afterQuotient_tableEntry] using hlanes
  · obtain ⟨k, hk, hexec⟩ := exec_quotient_of_rejected rd ra hacc
    refine ⟨_, hexec, fun i _ hi hz hlow => ?_, fun h => absurd h hacc⟩
    obtain rfl : k = i := Option.some.inj (hk.symm.trans (State.firstZeroLane_eq_some hi hz hlow))
    exact s.raiseError_entered _ _ _

/-! ### The quotients of the published table (R170, R171, R176) -/

/-- A lane of a completed QUOTIENT, when the table is published or still to be built. -/
theorem State.afterQuotient_lane_of_published {s : State} (h : s.mtValid = true → MagicPublished s)
    (rd ra rb : VReg) {i : Nat} (hi : i < s.params.w) :
    (s.afterQuotient rd ra rb).lane rd i =
      if s.lane rb i = 0 then s.lane ra i else s.lane ra i / s.lane rb i := by
  rw [s.afterQuotient_lane rd ra rb hi, quotientLane_of_published (magicPublished_lazyBuild h)]

/-- Settles O31. -/
theorem quotientIsFloorDivision : Obligations.QuotientIsFloorDivision := by
  intro rd ra rb s hpub hacc
  refine ⟨_, exec_quotient_of_accepted rd ra hacc, (s.afterQuotient_wroteV rd ra rb).toCompleted,
    fun hz => (s.afterQuotient_dz_iff rd ra rb).2 (.inr hz), fun i hi => ?_⟩
  rw [State.afterQuotient_lane_of_published hpub rd ra rb hi]
  refine ⟨fun hd => ?_, fun hd => if_pos hd⟩
  rw [if_neg hd, BitVec.toNat_udiv]

/-- Settles O35: both lanes are the quotient of the same two bytes, and the policy, being the same in both blocks, accepts
the second QUOTIENT with the first. -/
theorem quotientIsPure : Obligations.QuotientIsPure := by
  intro rd ra rb rd' ra' rb' s t s' t' hspub htpub hparams hlanes hs ht _ _ hrun
  have hsacc : QuotientAccepted s rb := accepted_of_exec_quotient hs hrun
  have htacc : QuotientAccepted t rb' := by
    refine hsacc.imp (fun h => hparams ▸ h) fun h i hi => ?_
    rw [← hparams] at hi
    rw [← (hlanes i hi).2]
    exact h i hi
  rw [exec_quotient_of_accepted rd ra hsacc] at hs
  rw [exec_quotient_of_accepted rd' ra' htacc] at ht
  cases hs
  cases ht
  refine ⟨(s.afterQuotient_wroteV rd ra rb).toCompleted, (t.afterQuotient_wroteV rd' ra' rb').toCompleted,
    fun i hi => ?_⟩
  obtain ⟨hn, hd⟩ := hlanes i hi
  rw [State.afterQuotient_lane_of_published hspub rd ra rb hi,
    State.afterQuotient_lane_of_published htpub rd' ra' rb' (hparams ▸ hi), hn, hd]

end Sys2Proof.Machine
end

section
/-! The expansion `quot.prim` of R101 (O33): its eight commands gather the triple and finish on it, as QUOTIENT does
in each lane, and none of them can raise an error (R175). -/

namespace Sys2Proof.Machine

open Sys2Proof Sys2Proof.Safety

/-! ### What any sequence of its commands leaves unchanged -/

/-- The commands `quot.prim` is made of: WTL of a slot that exists, and the lane arithmetic. -/
def isLanePrim : Instr → Bool
  | .wtl _ _ tsel => slotLegal tsel
  | .mulhi _ _ _ => true
  | .vadd _ _ _ => true
  | .vsub _ _ _ => true
  | .vsrlv _ _ _ => true
  | _ => false

theorem completed_of_isLanePrim {i : Instr} {s t : State} (hi : isLanePrim i = true) (h : exec i s = .next t) :
    Completed s t := by
  cases i with
  | wtl rd ra tsel =>
    obtain ⟨slot, hs⟩ := exists_slotOf (tsel := tsel) hi
    rw [exec_wtl_of_slot s rd ra hs] at h
    cases h
    exact (s.afterLookup_wroteV slot rd _).toCompleted
  | mulhi | vadd | vsub | vsrlv => cases h; exact (s.writeV_complete_only _ _).toCompleted
  | _ => cases hi

/-- What a sequence of such commands leaves: one more on CMDCNT for each, no error, no DZ event, and every vector register
that is no destination as it was. -/
structure LanePrimsKept (is : List Instr) (s t : State) : Prop where
  params  : t.params = s.params
  halted  : t.halted = s.halted
  errCode : t.errCode = s.errCode
  dz      : t.dz = s.dz
  cmdcnt  : t.cmdcnt = s.cmdcnt + BitVec.ofNat 32 is.length
  vs      : ∀ r : VReg, (∀ i ∈ is, writesV i ≠ some r) → t.v[r] = s.v[r]

theorem lanePrimsKept_of_execAll {is : List Instr} {s t : State} (his : ∀ i ∈ is, isLanePrim i = true)
    (h : execAll is s = .next t) : LanePrimsKept is s t := by
  induction is generalizing s with
  | nil =>
    cases h
    exact ⟨rfl, rfl, rfl, rfl, by simp, fun _ _ => rfl⟩
  | cons i is ih =>
    obtain ⟨a, ha, he⟩ := exec_effect i s
    rw [execAll_cons ha] at h
    have hprim := his i List.mem_cons_self
    have hc := completed_of_isLanePrim hprim ha
    have hdz : a.dz = s.dz := dz_of_effect he fun rd ra rb e => by simp [e, isLanePrim] at hprim
    have hrest := ih (fun j hj => his j (List.mem_cons_of_mem i hj)) h
    exact
      { params := hrest.params.trans hc.params
        halted := hrest.halted.trans hc.halted
        errCode := hrest.errCode.trans hc.errCode
        dz := hrest.dz.trans hdz
        cmdcnt := by
          rw [hrest.cmdcnt, hc.cmdcnt, List.length_cons, BitVec.ofNat_add, add_assoc, add_comm 1]
          rfl
        vs := fun r hr => (hrest.vs r fun j hj => hr j (List.mem_cons_of_mem i hj)).trans
          (v_of_effect he (hr i List.mem_cons_self)) }

theorem execAll_append {is : List Instr} {s t : State} (h : execAll is s = .next t) (js : List Instr) :
    execAll (is ++ js) s = execAll js t := by
  induction is generalizing s with
  | nil => cases h; rfl
  | cons i is ih =>
    obtain ⟨a, ha, -⟩ := exec_effect i s
    rw [execAll_cons ha] at h
    rw [List.cons_append, execAll_cons ha, ih h]

/-! ### What each of its commands leaves for the next -/

/-- A two-source lane command writes V[rd] and no other lane. -/
theorem exec_lanes2 {i : Instr} {f : Byte → Byte → Byte} {rd ra rb : VReg}
    {s : State} (h : exec i s = .next (s.mapLanes2 f rd ra rb).complete) :
    ∃ t, exec i s = .next t ∧ t.params = s.params ∧
      (t.v[rd] = (List.range s.params.w).map fun j => { val := f (s.lane ra j) (s.lane rb j), written := true }) ∧
      ∀ r j, j < s.params.w → t.lane r j = if r = rd then f (s.lane ra j) (s.lane rb j) else s.lane r j := by
  refine ⟨_, h, rfl, by simp, fun r j hj => ?_⟩
  split
  next e => subst e; exact s.lane_writeV_same r _ hj
  next e => exact s.lane_writeV_other e _ j

/-- A lookup of slot 0, 1 or 2 has built the table, and the next lookup of any of them reads it as the first would have
(R119). -/
theorem builtEntry_afterLookup (s : State) {slot slot' : Slot} (h : slot.isMagic = true) (h' : slot'.isMagic = true)
    (rd : VReg) (f : Nat → Byte) : builtEntry (s.afterLookup slot rd f) slot' = builtEntry s slot' := by
  have hbuilt : (s.afterLookup slot rd f).mtValid = true := s.lazyBuildFor_mtValid h
  rw [builtEntry, builtEntry, State.lazyBuildFor_eq_self fun _ => hbuilt, State.afterLookup, State.lazyBuildFor,
    State.lazyBuildFor, if_pos h, if_pos h']
  cases slot' <;> rfl

/-- A WTL of slot 0, 1 or 2 writes V[rd] and no other lane, and it leaves the table as it read it. -/
theorem exec_wtl_magic {tsel : BitVec 3} {slot : Slot} (hs : slotOf tsel = some slot) (hm : slot.isMagic = true)
    (rd ra : VReg) (s : State) :
    ∃ t, exec (.wtl rd ra tsel) s = .next t ∧ t.params = s.params ∧
      (∀ slot' : Slot, slot'.isMagic = true → builtEntry t slot' = builtEntry s slot') ∧
      ∀ r j, j < s.params.w → t.lane r j = if r = rd then builtEntry s slot (s.lane ra j).toNat else s.lane r j := by
  have hframe := s.afterLookup_wroteV slot rd fun j => builtEntry s slot (s.lane ra j).toNat
  refine ⟨_, exec_wtl_of_slot s rd ra hs, hframe.params, fun slot' hm' => ?_, fun r j hj => ?_⟩
  · exact builtEntry_afterLookup s hm hm' rd _
  · split
    next e => subst e; exact s.afterLookup_lane slot r _ hj
    next e => rw [State.lane, State.laneCell, hframe.vs r e]; rfl

/-- Shifting a byte by 8 or more leaves 0 in VSRLV's lane and in the finish of R168 alike (R189). -/
theorem shiftRightLane_eq (a b : Byte) : shiftRightLane a b = a >>> b.toNat := by
  unfold shiftRightLane
  split
  next => rfl
  next h => exact (BitVec.ushiftRight_eq_zero (not_lt.1 h)).symm

section

variable {vd vn vdiv vm v1 v2 : VReg}

/-- The three WTLs gather the triple of R167. -/
theorem execAll_gather (s : State) (hm1 : vm ≠ v1) (hm2 : vm ≠ v2) (h12 : v1 ≠ v2) (hmdiv : vm ≠ vdiv)
    (h1div : v1 ≠ vdiv) :
    ∃ t, execAll [.wtl vm vdiv 0, .wtl v1 vdiv 1, .wtl v2 vdiv 2] s = .next t ∧ ∀ i, i < s.params.w →
      t.lane vm i = builtEntry s .m (s.lane vdiv i).toNat ∧ t.lane v1 i = builtEntry s .sh1 (s.lane vdiv i).toNat ∧
      t.lane v2 i = builtEntry s .sh2 (s.lane vdiv i).toNat := by
  obtain ⟨a, ha, pa, ta, la⟩ := exec_wtl_magic (tsel := 0) (slot := .m) rfl rfl vm vdiv s
  obtain ⟨b, hb, pb, tb, lb⟩ := exec_wtl_magic (tsel := 1) (slot := .sh1) rfl rfl v1 vdiv a
  obtain ⟨c, hc, _, _, lc⟩ := exec_wtl_magic (tsel := 2) (slot := .sh2) rfl rfl v2 vdiv b
  refine ⟨c, by rw [execAll_cons ha, execAll_cons hb, execAll_cons hc, execAll], fun i hi => ?_⟩
  have hia : i < a.params.w := pa ▸ hi
  have hib : i < b.params.w := pb ▸ hia
  have adiv : a.lane vdiv i = s.lane vdiv i := by rw [la _ _ hi, if_neg hmdiv.symm]
  have bdiv : b.lane vdiv i = s.lane vdiv i := by rw [lb _ _ hia, if_neg h1div.symm, adiv]
  refine ⟨?_, ?_, ?_⟩
  · rw [lc _ _ hib, if_neg hm2, lb _ _ hia, if_neg hm1, la _ _ hi, if_pos rfl]
  · rw [lc _ _ hib, if_neg h12, lb _ _ hia, if_pos rfl, ta .sh1 rfl, adiv]
  · rw [lc _ _ hib, if_pos rfl, tb .sh2 rfl, ta .sh2 rfl, bdiv]

/-- The five lane commands are the finish of R168. -/
theorem execAll_finish (s : State) (hdm : vd ≠ vm) (hd1 : vd ≠ v1) (hd2 : vd ≠ v2) (hm1 : vm ≠ v1) (hm2 : vm ≠ v2)
    (hmn : vm ≠ vn) :
    ∃ t, execAll [.mulhi vm vm vn, .vsub vd vn vm, .vsrlv vd vd v1, .vadd vd vm vd, .vsrlv vd vd v2] s = .next t ∧
      t.v[vd] = (List.range s.params.w).map fun i =>
        { val := quotientFinish (s.lane vn i) (s.lane vm i) (s.lane v1 i) (s.lane v2 i), written := true } := by
  obtain ⟨a, ha, pa, -, la⟩ := exec_lanes2 (i := .mulhi vm vm vn) (s := s) rfl
  obtain ⟨b, hb, pb, -, lb⟩ := exec_lanes2 (i := .vsub vd vn vm) (s := a) rfl
  obtain ⟨c, hc, pc, -, lc⟩ := exec_lanes2 (i := .vsrlv vd vd v1) (s := b) rfl
  obtain ⟨d, hd, pd, -, ld⟩ := exec_lanes2 (i := .vadd vd vm vd) (s := c) rfl
  obtain ⟨t, ht, _, hv, _⟩ := exec_lanes2 (i := .vsrlv vd vd v2) (s := d) rfl
  refine ⟨t, by rw [execAll_cons ha, execAll_cons hb, execAll_cons hc, execAll_cons hd, execAll_cons ht, execAll], ?_⟩
  rw [hv, pd, pc, pb, pa]
  refine List.map_congr_left fun i hi => ?_
  have hi : i < s.params.w := List.mem_range.1 hi
  simp [la, lb, lc, ld, pa, pb, pc, hi, hdm.symm, hd1.symm, hd2.symm, hm1.symm, hm2.symm, hmn.symm, shiftRightLane_eq,
    quotientFinish]

end

/-- Settles O33: the gather and the finish are the two halves of `quotientLane`, and none of the eight commands can raise
an error. -/
theorem quotPrimExpansionAgreesWithQuotient : Obligations.QuotPrimExpansionAgreesWithQuotient := by
  intro vd vn vdiv vm v1 v2 s hdm hd1 hd2 hm1 hm2 h12 hmn h1n h2n hmdiv h1div _
  obtain ⟨a, ha, hgather⟩ := execAll_gather s hm1 hm2 h12 hmdiv h1div
  obtain ⟨t, ht, hfinish⟩ := execAll_finish a hdm hd1 hd2 hm1 hm2 hmn
  have hrun := (execAll_append ha _).trans ht
  have hakept := lanePrimsKept_of_execAll (by simp [isLanePrim, slotLegal]) ha
  have htkept := lanePrimsKept_of_execAll (by simp [isLanePrim, slotLegal]) hrun
  have hvn (i : Nat) : a.lane vn i = s.lane vn i := by
    rw [State.lane, State.laneCell, hakept.vs vn (by simp [writesV, hmn, h1n, h2n])]
    rfl
  have hlanes : t.v[vd] = (s.quotientLanes vd vn vdiv).v[vd] := by
    rw [hfinish, s.quotientLanes_v_self, hakept.params]
    refine List.map_congr_left fun i hi => ?_
    obtain ⟨hm, h1, h2⟩ := hgather i (List.mem_range.1 hi)
    rw [hvn, hm, h1, h2, State.quotientLane_eq]
    rfl
  refine ⟨t, hrun, htkept.halted, htkept.errCode, htkept.dz, htkept.cmdcnt, fun r hrd hrm hr1 hr2 => ?_,
    fun u hh hu hc => ?_, fun hpub i hi hz => ?_⟩
  · exact htkept.vs r (by simp [writesV, hrd.symm, hrm.symm, hr1.symm, hr2.symm])
  · rw [hlanes, v_of_completed_quotient hh hu hc]
  · rw [State.lane, State.laneCell, hlanes]
    exact (State.afterQuotient_lane_of_published hpub vd vn vdiv hi).trans (if_pos hz)

end Sys2Proof.Machine
end

section
/-! The supporting lane commands and the buffer commands (O6, O14 to O16, O18 to O21): the bits that a row's format
marks zero, the three lane functions as numbers, and the range check that VLD, VST and TLD share (R63, R214). -/

namespace Sys2Proof

open Laws

/-! ### The mask column of R93 -/

/-- The mask of the row with opcode `op` (R93); a reserved opcode has no row and fixes no bit. -/
def rowMask (op : BitVec 6) : Word :=
  match op.toNat with
  | 0x00 => 0xFFFFFFFF
  | 0x01 => 0xFFFC0000
  | 0x02 => 0xFC00FFFF
  | 0x03 => 0xFE0FFFFF
  | 0x04 => 0xFC007FFF
  | 0x05 => 0xFC01FFFF
  | 0x06 => 0xFC0FFFFF
  | 0x07 | 0x08 | 0x09 | 0x0A | 0x0B => 0xFC01FFFF
  | 0x0C => 0xFC7FFF00
  | 0x0D | 0x0E => 0xFC7F0000
  | 0x0F => 0xFFFF0000
  | _ => 0

/-- The mask of a command's row leaves of its word the match value of R93. -/
theorem encode_and_rowMask (i : Instr) : encode i &&& rowMask (opcodeOf i) = formatN (opcodeOf i) := by
  cases i with
  | nop => rfl
  | build lo hi => exact formatB_and_mask 0x01 lo hi
  | lookup128 rd ra tsel half => exact formatRT_and_mask 0x02 rd ra tsel (halfBit half)
  | highbitmask kd ra => exact formatRK_and_mask 0x03 kd ra
  | blend rd ra rb kc => exact formatRB_and_mask 0x04 rd ra rb kc
  | wtl rd ra tsel => exact formatRT_zero_and_mask 0x05 rd ra tsel
  | bitwidth rd ra => exact formatR2_and_mask 0x06 rd ra
  | mulhi rd ra rb | vadd rd ra rb | vsub rd ra rb | vsrlv rd ra rb | quotient rd ra rb =>
    exact formatR3_and_mask _ rd ra rb
  | vsplat rd imm8 => exact formatI_and_mask 0x0C rd imm8
  | vld r addr | vst r addr => exact formatM_and_mask _ r addr
  | tld addr => exact formatM_zero_and_mask 0x0F addr

end Sys2Proof

namespace Sys2Proof.Machine

open Sys2Proof Sys2Proof.Safety Laws

/-- A 1 in a bit that the row's mask covers and its match value leaves 0 raises IllegalCommand (R93, R95). -/
theorem reservedBitsRaise_of_rowMask {op : BitVec 6} {zeros : Word} (hmask : rowMask op &&& zeros = zeros)
    (hop : formatN op &&& zeros = 0) : ReservedBitsRaise op zeros := by
  refine reservedBitsRaise_of_encode ?_
  rintro i rfl
  exact and_zeros_of_and_mask (encode_and_rowMask i) hmask hop

/-! ### NOP, VSPLAT and the lane arithmetic (R185 to R189) -/

/-- Settles O6. -/
theorem nopChangesOnlyCmdcnt : Obligations.NopChangesOnlyCmdcnt :=
  ⟨decodeOfEncodeIsTheCommand .nop, rfl, reservedBitsRaise_of_rowMask rfl rfl, fun _ => rfl⟩

/-- Settles O18: an immediate written to every lane marks every lane written (R38). -/
theorem vsplatBroadcasts : Obligations.VsplatBroadcasts :=
  ⟨fun rd imm => decodeOfEncodeIsTheCommand (.vsplat rd imm), reservedBitsRaise_of_rowMask rfl rfl,
    fun rd _ s => ⟨_, rfl, s.writeV_complete_only rd _, s.writeV_complete_lanes rd _ _ fun _ _ => rfl⟩⟩

/-- A two-source lane command changes V[rd] and CMDCNT only, and leaves in each lane of V[rd] what `g`, its lane
function on numbers, gives. -/
theorem exec_lanes2_frame {i : Instr} {f : Byte → Byte → Byte} {rd ra rb : VReg} {s : State}
    (h : exec i s = .next (s.mapLanes2 f rd ra rb).complete) {g : Nat → Nat → Nat}
    (hg : ∀ a b : Byte, (f a b).toNat = g a.toNat b.toNat) :
    ∃ t, exec i s = .next t ∧ OnlyWroteV rd s t ∧
      LanesAre t rd s.params.w fun j => g (s.lane ra j).toNat (s.lane rb j).toNat :=
  ⟨_, h, s.writeV_complete_only rd _, s.writeV_complete_lanes rd _ _ fun _ _ => hg _ _⟩

/-- The minuend is lent 256, so that the difference of the numbers does not stop at 0. -/
theorem toNat_sub_byte (a b : Byte) : (a - b).toNat = (a.toNat + 256 - b.toNat) % 256 := by
  have hb : b.toNat < 256 := b.isLt
  rw [BitVec.toNat_sub, show 2 ^ 8 - b.toNat + a.toNat = a.toNat + 256 - b.toNat by omega]

theorem toNat_shiftRightLane (a b : Byte) :
    (shiftRightLane a b).toNat = if b.toNat < 8 then a.toNat / 2 ^ b.toNat else 0 := by
  rw [shiftRightLane, apply_ite BitVec.toNat, BitVec.toNat_ushiftRight, Nat.shiftRight_eq_div_pow]
  rfl

/-- Settles O14. -/
theorem vaddAddsModulo256 : Obligations.VaddAddsModulo256 :=
  ⟨fun rd ra rb => decodeOfEncodeIsTheCommand (.vadd rd ra rb), reservedBitsRaise_of_rowMask rfl rfl,
    fun _ _ _ _ => exec_lanes2_frame (g := fun a b => (a + b) % 256) rfl BitVec.toNat_add⟩

/-- Settles O15. -/
theorem vsubSubtractsModulo256 : Obligations.VsubSubtractsModulo256 :=
  ⟨fun rd ra rb => decodeOfEncodeIsTheCommand (.vsub rd ra rb), reservedBitsRaise_of_rowMask rfl rfl,
    fun _ _ _ _ => exec_lanes2_frame (g := fun a b => (a + 256 - b) % 256) rfl toNat_sub_byte⟩

/-- Settles O16. -/
theorem vsrlvShiftsRightPerLane : Obligations.VsrlvShiftsRightPerLane :=
  ⟨fun rd ra rb => decodeOfEncodeIsTheCommand (.vsrlv rd ra rb), reservedBitsRaise_of_rowMask rfl rfl,
    fun _ _ _ _ => exec_lanes2_frame (g := fun a b => if b < 8 then a / 2 ^ b else 0) rfl toNat_shiftRightLane⟩

/-! ### The commands that reach BUF: the shared range check and frame (R63, R214) -/

/-- The commands that move `n` bytes of BUF from `addr` on: W for VLD and VST, 256 for TLD (R190 to R192). -/
inductive MovesRange (s : State) : Instr → BitVec 16 → Nat → Prop
  | vld (rd : VReg) (addr : BitVec 16) : MovesRange s (.vld rd addr) addr s.params.w
  | vst (rs : VReg) (addr : BitVec 16) : MovesRange s (.vst rs addr) addr s.params.w
  | tld (addr : BitVec 16) : MovesRange s (.tld addr) addr 256

section

variable {s t : State} {i : Instr} {addr : BitVec 16} {n : Nat}

/-- A range that does not fit raises BufferRange with the address, and nothing is moved (R214). -/
theorem bufferRange_of_movesRange (h : MovesRange s i addr n) (hout : addr.toNat + n > s.params.bufSize) :
    ∃ t, exec i s = .next t ∧ ErrorEntered (encode i) .bufferRange (addr.setWidth 32) s t := by
  have hfit : ¬s.fits addr n = true := fun hfit => hout.not_ge ((s.fits_iff addr n).1 hfit)
  refine ⟨_, ?_, s.raiseError_entered _ _ _⟩
  cases h with
  | vld | vst | tld => exact if_neg hfit

/-- A range that fits is moved, and the masks, the MagicTable and DZ stay. -/
theorem frame_of_movesRange (h : MovesRange s i addr n) (hfit : s.fits addr n = true) (ht : exec i s = .next t) :
    Completed s t ∧ t.k = s.k ∧ MagicKept s t ∧ t.dz = s.dz := by
  cases h with
  | vld | vst | tld =>
    cases ht.symm.trans (if_pos hfit)
    exact ⟨⟨⟨rfl, rfl, rfl⟩, rfl, rfl, rfl, rfl, rfl, rfl⟩, rfl, ⟨rfl, rfl, rfl, rfl⟩, rfl⟩

/-- A command that names no vector register as its destination leaves them all (R43). -/
theorem v_eq_of_effect (he : Effect i s t) (hi : writesV i = none) : t.v = s.v :=
  Vector.ext fun r hr => v_of_effect he (r := ⟨r, hr⟩) (by simp [hi])

/-- VST takes no value from BUF, so it draws for no unwritten byte (log 4). -/
theorem draws_of_exec_vst {rs : VReg} (hfit : s.fits addr s.params.w = true) (ht : exec (.vst rs addr) s = .next t) :
    t.draws = s.draws := by
  cases ht.symm.trans (if_pos hfit)
  rfl

theorem length_user_of_exec_tld (hfit : s.fits addr 256 = true) (ht : exec (.tld addr) s = .next t) :
    t.user.length = 256 := by
  cases ht.symm.trans (if_pos hfit)
  simp

end

/-- Settles O19. -/
theorem vldLoadsLanesOrRaisesBufferRange : Obligations.VldLoadsLanesOrRaisesBufferRange := by
  refine ⟨fun rd a => decodeOfEncodeIsTheCommand (.vld rd a), reservedBitsRaise_of_rowMask rfl rfl,
    fun rd addr s => ?_⟩
  split
  next hout => exact bufferRange_of_movesRange (.vld rd addr) hout
  next hin =>
    have hfit : s.fits addr s.params.w = true := (s.fits_iff _ _).2 (not_lt.1 hin)
    obtain ⟨t, ht, hlen, hmoved⟩ := exec_vld_of_fits rd hfit
    obtain ⟨hc, hk, hmagic, hdz⟩ := frame_of_movesRange (.vld rd addr) hfit ht
    have he := effect_of_exec ht
    have hwrote : WroteV rd s t :=
      { toCompleted := hc
        vs := fun r hr => v_of_effect he (by simpa [writesV] using hr.symm)
        ks := hk
        user := user_of_effect he (by simp)
        buf := fun a => buf_of_effect he (by simp [storesTo]) }
    exact ⟨t, ht, hwrote, hmagic, hdz, hlen, hmoved⟩

/-- Settles O20. -/
theorem vstStoresLanesOrRaisesBufferRange : Obligations.VstStoresLanesOrRaisesBufferRange := by
  refine ⟨fun rs a => decodeOfEncodeIsTheCommand (.vst rs a), reservedBitsRaise_of_rowMask rfl rfl,
    fun rs addr s => ?_⟩
  split
  next hout => exact bufferRange_of_movesRange (.vst rs addr) hout
  next hin =>
    have hfit : s.fits addr s.params.w = true := (s.fits_iff _ _).2 (not_lt.1 hin)
    obtain ⟨t, ht, -, hstored⟩ := exec_vst_of_fits rs hfit
    obtain ⟨hc, hk, hmagic, hdz⟩ := frame_of_movesRange (.vst rs addr) hfit ht
    have he := effect_of_exec ht
    exact ⟨t, ht, hc, v_eq_of_effect he rfl, hk, user_of_effect he (by simp), hmagic, hdz, draws_of_exec_vst hfit ht,
      hstored, fun a ha => buf_of_effect he ha⟩

/-- Settles O21. -/
theorem tldLoadsTheUserTableOrRaisesBufferRange : Obligations.TldLoadsTheUserTableOrRaisesBufferRange := by
  refine ⟨fun a => decodeOfEncodeIsTheCommand (.tld a), reservedBitsRaise_of_rowMask rfl rfl, fun addr s => ?_⟩
  split
  next hout => exact bufferRange_of_movesRange (.tld addr) hout
  next hin =>
    have hfit : s.fits addr 256 = true := (s.fits_iff _ _).2 (not_lt.1 hin)
    obtain ⟨t, ht, -, hv, hmoved⟩ := exec_tld_of_fits hfit
    obtain ⟨hc, hk, hmagic, hdz⟩ := frame_of_movesRange (.tld addr) hfit ht
    have he := effect_of_exec ht
    exact ⟨t, ht, hc, hv, hk, hmagic, hdz, fun a => buf_of_effect he (by simp [storesTo]),
      length_user_of_exec_tld hfit ht, hmoved⟩

end Sys2Proof.Machine
end

section
/-! Errors and their handling (R211 to R222): which command raises which error (O36, O37), what a halted block still
does and how it resumes (O44, O46), and DZ, which is no error (O51). -/

namespace Sys2Proof.Machine

open Sys2Proof Sys2Proof.Safety

/-! ### Which command raises which error (R211 to R216) -/

/-- Settles O36. -/
theorem everyCommandCompletesOrEntersOneError : Obligations.EveryCommandCompletesOrEntersOneError := by
  intro i s
  obtain ⟨t, ht, he⟩ := exec_effect i s
  exact ⟨t, ht, completed_or_error_of_effect he⟩

/-- The errors of R211 to R214, each with the condition that raises it and what ERRINFO then records. -/
inductive Raises (s : State) : Instr → ErrCode → Word → Prop
  /-- A BUILD that requests a divisor outside [1,255] (R118, R211). -/
  | invalidDivisor (lo hi : BitVec 9) (hle : lo.toNat ≤ hi.toNat) (hout : lo.toNat = 0 ∨ 255 < hi.toNat) :
      Raises s (.build lo hi) .invalidDivisor (firstBadDivisor lo)
  /-- A QUOTIENT under STRICT whose lowest zero divisor lane is `k` (R172, R212). -/
  | divisionByZero (rd ra rb : VReg) (k : Nat) (hp : s.params.policy = .strict) (hk : s.firstZeroLane rb = some k) :
      Raises s (.quotient rd ra rb) .divisionByZero (BitVec.ofNat 32 k)
  /-- A BUILD whose range is reversed, or lies inside [1,255] and is not all of it (R118, R213). -/
  | illegalRange (lo hi : BitVec 9) (h : hi.toNat < lo.toNat ∨
      ¬(lo.toNat = 0 ∨ 255 < hi.toNat) ∧ ¬(lo.toNat = 1 ∧ hi.toNat = 255)) :
      Raises s (.build lo hi) .illegalCommand 0
  /-- A LOOKUP128 of slot 5, 6 or 7 (R96, R213). -/
  | lookup128Slot (rd ra : VReg) (tsel : BitVec 3) (half : Half) (hs : slotOf tsel = none) :
      Raises s (.lookup128 rd ra tsel half) .illegalCommand 0
  /-- A WTL of slot 5, 6 or 7 (R96, R213). -/
  | wtlSlot (rd ra : VReg) (tsel : BitVec 3) (hs : slotOf tsel = none) : Raises s (.wtl rd ra tsel) .illegalCommand 0
  /-- A range of BUF that does not fit (R214). -/
  | bufferRange (i : Instr) (addr : BitVec 16) (n : Nat) (hi : MovesRange s i addr n)
      (hout : addr.toNat + n > s.params.bufSize) : Raises s i .bufferRange (addr.setWidth 32)

/-- The command completes, or enters an error that the rules give it. -/
def CompletesOrRaises (i : Instr) (s t : State) : Prop :=
  Completed s t ∨ ∃ e x, Raises s i e x ∧ ErrorEntered (encode i) e x s t

section

variable {i : Instr} {s t : State}

theorem completesOrRaises_of_raiseError {e : ErrCode} {x : Word} (hr : Raises s i e x)
    (h : exec i s = .next t) (herr : exec i s = .next (s.raiseError (encode i) e x)) : CompletesOrRaises i s t := by
  cases h.symm.trans herr
  exact .inr ⟨e, x, hr, s.raiseError_entered _ e x⟩

theorem completesOrRaises_build {lo hi : BitVec 9} (h : exec (.build lo hi) s = .next t) :
    CompletesOrRaises (.build lo hi) s t := by
  by_cases hrev : hi.toNat < lo.toNat
  · exact completesOrRaises_of_raiseError (.illegalRange lo hi (.inl hrev)) h (execBuild_reversed s hrev)
  by_cases hout : lo.toNat = 0 ∨ 255 < hi.toNat
  · exact completesOrRaises_of_raiseError (.invalidDivisor lo hi (not_lt.1 hrev) hout) h
      (execBuild_outside s hrev hout)
  by_cases hfull : lo.toNat = 1 ∧ hi.toNat = 255
  · obtain ⟨hlo, hhi⟩ := hfull
    cases h.symm.trans (execBuild_full s hlo hhi)
    exact .inl (s.complete_completed _ ⟨rfl, rfl, rfl⟩ rfl rfl rfl rfl rfl rfl)
  · exact completesOrRaises_of_raiseError (.illegalRange lo hi (.inr ⟨hout, hfull⟩)) h
      (execBuild_partial s hrev hout hfull)

theorem completesOrRaises_lookup128 {rd ra : VReg} {tsel : BitVec 3} {half : Half}
    (h : exec (.lookup128 rd ra tsel half) s = .next t) : CompletesOrRaises (.lookup128 rd ra tsel half) s t := by
  cases hs : slotOf tsel with
  | none =>
    exact completesOrRaises_of_raiseError (.lookup128Slot rd ra tsel half hs) h
      (exec_lookup128_of_no_slot s rd ra half hs)
  | some slot =>
    cases h.symm.trans (exec_lookup128_of_slot s rd ra half hs)
    exact .inl (s.afterLookup_wroteV slot rd _).toCompleted

theorem completesOrRaises_wtl {rd ra : VReg} {tsel : BitVec 3} (h : exec (.wtl rd ra tsel) s = .next t) :
    CompletesOrRaises (.wtl rd ra tsel) s t := by
  cases hs : slotOf tsel with
  | none => exact completesOrRaises_of_raiseError (.wtlSlot rd ra tsel hs) h (exec_wtl_of_no_slot s rd ra hs)
  | some slot =>
    cases h.symm.trans (exec_wtl_of_slot s rd ra hs)
    exact .inl (s.afterLookup_wroteV slot rd _).toCompleted

theorem policy_strict_of_not_accepted {rb : VReg} (h : ¬QuotientAccepted s rb) : s.params.policy = .strict := by
  cases hp : s.params.policy with
  | strict => rfl
  | lenient => exact absurd (.inl hp) h

theorem completesOrRaises_quotient {rd ra rb : VReg} (h : exec (.quotient rd ra rb) s = .next t) :
    CompletesOrRaises (.quotient rd ra rb) s t := by
  by_cases hacc : QuotientAccepted s rb
  · cases h.symm.trans (exec_quotient_of_accepted rd ra hacc)
    exact .inl (s.afterQuotient_wroteV rd ra rb).toCompleted
  · obtain ⟨k, hk, herr⟩ := exec_quotient_of_rejected rd ra hacc
    exact completesOrRaises_of_raiseError (.divisionByZero rd ra rb k (policy_strict_of_not_accepted hacc) hk) h herr

theorem completesOrRaises_movesRange {addr : BitVec 16} {n : Nat} (hi : MovesRange s i addr n)
    (h : exec i s = .next t) : CompletesOrRaises i s t := by
  by_cases hfit : s.fits addr n = true
  · exact .inl (frame_of_movesRange hi hfit h).1
  · have hout : addr.toNat + n > s.params.bufSize := not_le.1 (mt (s.fits_iff addr n).2 hfit)
    obtain ⟨t', ht', herr⟩ := bufferRange_of_movesRange hi hout
    cases h.symm.trans ht'
    exact .inr ⟨_, _, .bufferRange i addr n hi hout, herr⟩

/-- Every command completes or raises one of the errors of R211 to R214, under the condition and with the ERRINFO of its
rule. -/
theorem completesOrRaises_of_exec (h : exec i s = .next t) : CompletesOrRaises i s t := by
  cases i with
  | build lo hi => exact completesOrRaises_build h
  | lookup128 rd ra tsel half => exact completesOrRaises_lookup128 h
  | wtl rd ra tsel => exact completesOrRaises_wtl h
  | quotient rd ra rb => exact completesOrRaises_quotient h
  | vld rd addr => exact completesOrRaises_movesRange (.vld rd addr) h
  | vst rs addr => exact completesOrRaises_movesRange (.vst rs addr) h
  | tld addr => exact completesOrRaises_movesRange (.tld addr) h
  | nop => cases h; exact .inl (s.complete_completed s ⟨rfl, rfl, rfl⟩ rfl rfl rfl rfl rfl rfl)
  | highbitmask kd ra => cases h; exact .inl (s.writeK_complete_only kd _).toCompleted
  | blend rd | bitwidth rd | mulhi rd | vadd rd | vsub rd | vsrlv rd | vsplat rd =>
    cases h; exact .inl (s.writeV_complete_only rd _).toCompleted

/-- A command of a running block that leaves an error entered raised that very error: the registers hold one code and
one ERRINFO (R221). -/
theorem raises_of_errorEntered {c x : Word} {e : ErrCode} (hrun : s.halted = false) (h : exec i s = .next t)
    (herr : ErrorEntered c e x s t) : Raises s i e x := by
  rcases completesOrRaises_of_exec h with hc | ⟨e', x', hr, herr'⟩
  · exact absurd (herr.halted.symm.trans (hc.halted.trans hrun)) (by decide)
  · obtain rfl : e' = e := herr'.errCode.symm.trans herr.errCode
    obtain rfl : x' = x := herr'.errinfo.symm.trans herr.errinfo
    exact hr

end

/-! ### The code in STATUS and the number in ERRINFO -/

theorem State.statusWord_errCode (s : State) : s.statusWord.extractLsb' 4 4 = s.errCode.bits := by
  obtain ⟨-, -, -, -, hcode, -⟩ := statusReadsAndClears.1 s
  exact hcode

theorem ErrCode.bits_le_four (e : ErrCode) : e.bits.toNat ≤ 4 := by
  cases e <;> decide

/-- W is at most 64 (R6). -/
theorem laneCount_le (p : Params) : p.w ≤ 64 := by
  unfold Params.w
  cases p.lanes <;> decide

/-- ERRINFO of an InvalidDivisor is the smallest requested divisor outside [1,255] (R118, R211). -/
theorem firstBadDivisor_least {lo hi : BitVec 9} (hle : lo.toNat ≤ hi.toNat)
    (hout : lo.toNat = 0 ∨ 255 < hi.toNat) :
    lo.toNat ≤ (firstBadDivisor lo).toNat ∧ (firstBadDivisor lo).toNat ≤ hi.toNat ∧
      ¬(1 ≤ (firstBadDivisor lo).toNat ∧ (firstBadDivisor lo).toNat ≤ 255) ∧
      ∀ d : Nat, lo.toNat ≤ d → d < (firstBadDivisor lo).toNat → 1 ≤ d ∧ d ≤ 255 := by
  rw [toNat_firstBadDivisor]
  split <;> exact ⟨by omega, by omega, by omega, fun _ _ _ => by omega⟩

/-- A lane number fits in ERRINFO (R212). -/
theorem toNat_ofNat_lane {p : Params} {k : Nat} (hk : k < p.w) : (BitVec.ofNat 32 k).toNat = k := by
  have hw := laneCount_le p
  rw [BitVec.toNat_ofNat]
  omega

/-- A buffer address fits in ERRINFO (R214). -/
theorem toNat_setWidth_addr (addr : BitVec 16) : (addr.setWidth 32).toNat = addr.toNat :=
  BitVec.toNat_setWidth_of_le (by decide)

section

variable {s : State} {i : Instr} {x : Word}

theorem build_of_raises (h : Raises s i .invalidDivisor x) :
    ∃ lo hi, i = .build lo hi ∧ lo.toNat ≤ x.toNat ∧ x.toNat ≤ hi.toNat ∧ ¬(1 ≤ x.toNat ∧ x.toNat ≤ 255) ∧
      ∀ d : Nat, lo.toNat ≤ d → d < x.toNat → 1 ≤ d ∧ d ≤ 255 := by
  cases h with
  | invalidDivisor lo hi hle hout => exact ⟨lo, hi, rfl, firstBadDivisor_least hle hout⟩

theorem quotient_of_raises (h : Raises s i .divisionByZero x) :
    s.params.policy = .strict ∧ ∃ rd ra rb, i = .quotient rd ra rb ∧ x.toNat < s.params.w ∧
      s.lane rb x.toNat = 0 ∧ ∀ j, j < x.toNat → s.lane rb j ≠ 0 := by
  cases h with
  | divisionByZero rd ra rb k hp hk =>
    have hlowest := s.firstZeroLane_some rb k hk
    refine ⟨hp, rd, ra, rb, rfl, ?_⟩
    rwa [toNat_ofNat_lane hlowest.1]

theorem errinfo_of_raises_illegalCommand (h : Raises s i .illegalCommand x) : x = 0 := by
  cases h with
  | illegalRange | lookup128Slot | wtlSlot => rfl

theorem range_of_raises (h : Raises s i .bufferRange x) :
    (∃ rd a, i = .vld rd a ∧ x.toNat = a.toNat ∧ a.toNat + s.params.w > s.params.bufSize) ∨
    (∃ rs a, i = .vst rs a ∧ x.toNat = a.toNat ∧ a.toNat + s.params.w > s.params.bufSize) ∨
    (∃ a, i = .tld a ∧ x.toNat = a.toNat ∧ a.toNat + 256 > s.params.bufSize) := by
  cases h with
  | bufferRange i addr n hi hout =>
    have hx := toNat_setWidth_addr addr
    cases hi with
    | vld rd => exact .inl ⟨rd, addr, rfl, hx, hout⟩
    | vst rs => exact .inr (.inl ⟨rs, addr, rfl, hx, hout⟩)
    | tld => exact .inr (.inr ⟨addr, rfl, hx, hout⟩)

end

/-- Settles O37: one lemma above per error, and STATUS shows the code of the error entered. -/
theorem errorCodesAndTheirCommands : Obligations.ErrorCodesAndTheirCommands := by
  intro i s t e x hrun hexec herr _
  have hr : Raises s i e x := raises_of_errorEntered hrun hexec herr
  have hcode : t.statusWord.extractLsb' 4 4 = e.bits := herr.errCode ▸ t.statusWord_errCode
  rw [hcode]
  refine ⟨e.bits_le_four, ?_, ?_, ?_, ?_⟩
  · rintro rfl; exact ⟨rfl, build_of_raises hr⟩
  · rintro rfl; exact ⟨rfl, quotient_of_raises hr⟩
  · rintro rfl; exact ⟨rfl, errinfo_of_raises_illegalCommand hr⟩
  · rintro rfl; exact ⟨rfl, range_of_raises hr⟩

/-! ### A halted block, and its return (R218, R219) -/

/-- The step at which a running block finds a command in CMD is that command (R39). -/
theorem step_of_command {s : State} {w : Word} {i : Instr} {rest : List HostTxn}
    (hp : s.pending = .regWrite cmdOffset w :: rest) (hrun : s.halted = false) (hd : decode w = .ok i) :
    step s = exec i { s with pending := rest } :=
  (step_of_pending hp).trans (issue_of_decode (s := { s with pending := rest }) hrun hd)

/-- Settles O44. -/
theorem haltedBlockDiscardsCommands : Obligations.HaltedBlockDiscardsCommands := by
  intro s hh
  refine ⟨fun w rest hp => ?_, fun _ => rfl, fun x => ⟨_, rfl, ?_⟩, fun a b ha => ?_, fun a b ha hb => ?_⟩
  · exact (step_of_pending hp).trans (issue_of_halted w hh)
  · obtain ⟨hhalted, -, hdz⟩ := s.writeStatus_flags x
    exact ⟨by rw [hhalted, hh, Bool.true_and], hdz⟩
  · obtain ⟨⟨t, ht, -, hread, -⟩, -⟩ := (bufferPortReachesOneByte s a b).1 ha
    exact ⟨t, ht, hread⟩
  · exact ⟨_, hostBufRead_of_read ha hb, rfl⟩

/-- Settles O46: the STATUS write is one record update, and the word then finds a running block. -/
theorem errorReturnResumesTheBlock : Obligations.ErrorReturnResumesTheBlock := by
  intro s x w i rest hh hx hd hp resumed
  constructor
  · refine (step_of_pending hp).trans (congrArg Host.Outcome.next ?_)
    rw [State.writeStatus_eq]
    simp [resumed, hx, hh]
  · exact step_of_command (s := { resumed with pending := .regWrite cmdOffset w :: rest }) rfl rfl hd

/-! ### DZ (R222) -/

/-- A completed command of a running block is no error: it does not halt, and ERRCODE and the error registers are as
before (R222). -/
theorem noError_of_completed {s t : State} (hrun : s.halted = false) (h : Completed s t) :
    t.halted = false ∧ t.errCode = s.errCode ∧ t.erridx = s.erridx ∧ t.errcmd = s.errcmd ∧ t.errinfo = s.errinfo :=
  ⟨h.halted.trans hrun, h.errCode, h.erridx, h.errcmd, h.errinfo⟩

/-- Of DZ a STATUS write only clears, by bit 2 (R34). -/
theorem State.writeStatus_dz (s : State) (x : Word) : (s.writeStatus x).dz = (s.dz && !x.getLsbD 2) := by
  obtain ⟨-, -, hdz⟩ := s.writeStatus_flags x
  exact hdz

section

variable {s t : State}

/-- No command clears DZ (R222). -/
theorem dz_of_effect_of_dz {i : Instr} (he : Effect i s t) (hs : s.dz = true) : t.dz = true := by
  cases he with
  | quotient | lanesBuilt => simp [hs]
  | error | nop | build | lanes | mask | vld | vst | tld => exact hs

/-- The only command that sets DZ is a QUOTIENT that completes under LENIENT with a zero divisor lane (R171, R222). -/
theorem quotient_of_exec_sets_dz {i : Instr} (h : exec i s = .next t) (hs : s.dz = false) (ht : t.dz = true) :
    ∃ rd ra rb, i = .quotient rd ra rb ∧ s.params.policy = .lenient ∧ (∃ j, j < s.params.w ∧ s.lane rb j = 0) ∧
      Completed s t := by
  by_cases hq : ∃ rd ra rb, i = .quotient rd ra rb
  · obtain ⟨rd, ra, rb, rfl⟩ := hq
    by_cases hacc : QuotientAccepted s rb
    · cases h.symm.trans (exec_quotient_of_accepted rd ra hacc)
      obtain ⟨j, hj, hz⟩ := ((s.afterQuotient_dz_iff rd ra rb).1 ht).resolve_left (by simp [hs])
      exact ⟨rd, ra, rb, rfl, hacc.resolve_right fun hne => hne j hj hz, ⟨j, hj, hz⟩,
        (s.afterQuotient_wroteV rd ra rb).toCompleted⟩
    · obtain ⟨k, -, herr⟩ := exec_quotient_of_rejected rd ra hacc
      cases h.symm.trans herr
      simp [hs] at ht
  · push Not at hq
    have hkept := dz_of_effect (effect_of_exec h) hq
    simp [hs, ht] at hkept

/-- A QUOTIENT under LENIENT with a zero divisor lane completes and sets DZ (R171, R222). -/
theorem exec_lenient_quotient_of_zero (rd ra : VReg) {rb : VReg} (hl : s.params.policy = .lenient)
    (hz : ∃ j, j < s.params.w ∧ s.lane rb j = 0) :
    ∃ u, exec (.quotient rd ra rb) s = .next u ∧ Completed s u ∧ u.dz = true :=
  ⟨_, exec_quotient_of_accepted rd ra (.inl hl), (s.afterQuotient_wroteV rd ra rb).toCompleted,
    (s.afterQuotient_dz_iff rd ra rb).2 (.inr hz)⟩

/-- A transaction sets DZ only as such a QUOTIENT, written to CMD of a running block. -/
theorem quotient_of_hostEffect_sets_dz {y : HostTxn} (he : HostEffect y s t) (hs : s.dz = false)
    (ht : t.dz = true) :
    ∃ w rd ra rb, y = .regWrite cmdOffset w ∧ s.halted = false ∧ decode w = .ok (.quotient rd ra rb) ∧
      s.params.policy = .lenient ∧ (∃ j, j < s.params.w ∧ s.lane rb j = 0) ∧ Completed s t := by
  cases he with
  | replied | ignored | stored => simp [hs] at ht
  | status v => simp [State.writeStatus_dz, hs] at ht
  | reset => cases ht
  | command w _ hy hi =>
    rcases issue_cases w s with ⟨-, e⟩ | ⟨hrun, i, hd, -, e⟩ | ⟨-, e⟩ <;> rw [e] at hi
    · cases hi; simp [hs] at ht
    · obtain ⟨rd, ra, rb, rfl, hp, hz, hc⟩ := quotient_of_exec_sets_dz hi hs ht
      exact ⟨w, rd, ra, rb, hy, hrun, hd, hp, hz, hc⟩
    · cases hi; simp [hs] at ht

/-- A transaction clears DZ only as a STATUS write with bit 2 = 1 or as Reset (R222). -/
theorem clears_dz_of_hostEffect {y : HostTxn} (he : HostEffect y s t) (hs : s.dz = true) (ht : t.dz = false) :
    (∃ x, y = .regWrite statusOffset x ∧ x.getLsbD 2 = true) ∨ y = .reset := by
  cases he with
  | replied | ignored | stored => simp [hs] at ht
  | status v hy => exact .inl ⟨v, hy, by simpa [State.writeStatus_dz, hs] using ht⟩
  | reset hy => exact .inr hy
  | command w _ _ hi =>
    rcases issue_cases w s with ⟨-, e⟩ | ⟨-, i, -, -, e⟩ | ⟨-, e⟩ <;> rw [e] at hi
    · cases hi; simp [hs] at ht
    · simp [dz_of_effect_of_dz (effect_of_exec hi) hs] at ht
    · cases hi; simp [hs] at ht

end

/-- Settles O51. -/
theorem dzIsSetByLenientQuotientAndClearedByTheHost : Obligations.DzIsSetByLenientQuotientAndClearedByTheHost := by
  intro s t hstep
  refine ⟨fun hs ht => ?_, fun hs ht => ?_, fun x rest hp hx => ?_, fun w rest rd ra rb i hp hrun hd hl hi hz => ?_⟩
  · rcases step_cases hstep with ⟨-, rfl⟩ | ⟨y, rest, hp, he⟩
    · simp [hs] at ht
    · obtain ⟨w, rd, ra, rb, rfl, hrun, hd, hl, hz, hc⟩ := quotient_of_hostEffect_sets_dz he hs ht
      exact ⟨w, rest, rd, ra, rb, hp, hrun, hd, hl, hz, noError_of_completed (s := { s with pending := rest }) hrun hc⟩
  · rcases step_cases hstep with ⟨-, rfl⟩ | ⟨y, rest, hp, he⟩
    · simp [hs] at ht
    · rcases clears_dz_of_hostEffect he hs ht with ⟨x, rfl, hx⟩ | rfl
      · exact .inl ⟨x, rest, hp, hx⟩
      · exact .inr ⟨rest, hp⟩
  · cases hstep.symm.trans (step_of_pending hp)
    simp [State.writeStatus_dz, hx]
  · obtain ⟨u, hu, hc, hdz⟩ := exec_lenient_quotient_of_zero (s := { s with pending := rest }) rd ra hl ⟨i, hi, hz⟩
    cases hstep.symm.trans ((step_of_command hp hrun hd).trans hu)
    exact ⟨hdz, noError_of_completed (s := { s with pending := rest }) hrun hc⟩

end Sys2Proof.Machine
end

section
/-! Every step answers (O53): a transaction of the host answers a next state and keeps the parameters and the rest of
the host's list; with nothing to come the block is idle (R230, R248). -/

namespace Sys2Proof.Machine

open Sys2Proof.Safety

/-- A step with no transaction to come holds all state (R230). -/
theorem step_of_idle {s : State} (h : s.pending = []) : step s = .next s := by
  simp [step, nextTransaction, h]

/-- A word written to CMD changes nothing of the construction and the host, whether it is discarded (R218), executed
(R39) or raises IllegalCommand (R103). -/
theorem hostKept_of_issue {w : Word} {s t : State} (h : issue w s = .next t) : HostKept s t := by
  rcases issue_cases w s with ⟨-, e⟩ | ⟨-, i, -, -, e⟩ | ⟨-, e⟩ <;> rw [e] at h
  · cases h; exact ⟨rfl, rfl, rfl⟩
  · exact hostKept_of_effect (effect_of_exec h)
  · cases h; exact ⟨rfl, rfl, rfl⟩

/-- A transaction of the host always answers (R248): CMD does, and every other port is one update or none. -/
theorem exists_transact_eq_next (x : HostTxn) (s : State) : ∃ t, transact x s = .next t := by
  cases x with
  | regRead off => exact ⟨_, rfl⟩
  | regWrite off v =>
    simp only [transact, hostRegWrite]
    split_ifs
    · exact ⟨_, rfl⟩
    · exact exists_issue_eq_next v s
    · exact ⟨_, rfl⟩
  | bufRead a =>
    simp only [transact, hostBufRead]
    split_ifs <;> exact ⟨_, rfl⟩
  | bufWrite a b =>
    simp only [transact, hostBufWrite]
    split_ifs <;> exact ⟨_, rfl⟩
  | reset => exact ⟨_, rfl⟩

/-- No transaction, Reset included, changes the parameters (R7) or the host's transactions to come. -/
theorem params_pending_of_hostEffect {x : HostTxn} {s t : State} (he : HostEffect x s t) :
    t.params = s.params ∧ t.pending = s.pending := by
  cases he with
  | replied | ignored | stored => exact ⟨rfl, rfl⟩
  | status v => exact ⟨s.writeStatus_params v, s.writeStatus_pending v⟩
  | command w _ _ hi =>
    obtain ⟨hparams, hpending, -⟩ := hostKept_of_issue hi
    exact ⟨hparams, hpending⟩
  | reset => exact ⟨s.resetBlock_params, s.resetBlock_pending⟩

/-- Settles O53. -/
theorem stepAlwaysAnswersANextState : Obligations.StepAlwaysAnswersANextState := by
  refine ⟨fun _ => step_of_idle, fun s => ?_⟩
  cases hp : s.pending with
  | nil => exact ⟨s, step_of_idle hp, rfl, fun hne => absurd rfl hne⟩
  | cons x rest =>
    obtain ⟨t, ht⟩ := exists_transact_eq_next x { s with pending := rest }
    obtain ⟨hparams, hpending⟩ := params_pending_of_hostEffect (hostEffect_of_transact ht)
    exact ⟨t, (step_of_pending hp).trans ht, hparams, fun _ => hpending⟩

end Sys2Proof.Machine
end
